-- ==== Sys2Proof/Word.lean ====
section
/-! DEFINITION. The word types of UIDE-1: bytes, 32-bit bus words, and the fixed-length byte arrays of the spec. -/

namespace Sys2Proof

/-- One byte; a character of a string is its ASCII byte (00_scope.md R16). -/
abbrev Byte := BitVec 8

/-- One 32-bit bus word (20_memory.md R81). -/
abbrev Word := BitVec 32

/-- A 128-bit identifier as its 16 bytes b[0] to b[15] (00_scope.md R14). -/
abbrev Ident := Vector Byte 16

/-- A 32-byte seed of the bit generator (00_scope.md R6). -/
abbrev Seed := Vector Byte 32

/-- A 64-byte input or output buffer: IBUF_SIZE = OBUF_SIZE = 64 (00_scope.md R8). -/
abbrev Buffer := Vector Byte 64

/-- One bit of a register, from a Bool. -/
abbrev bit (b : Bool) : BitVec 1 := BitVec.ofBool b

end Sys2Proof
end

