-- ==== Sys2Proof/Syntax.lean ====
section
/-! DEFINITION. The commands of UIDE-1, one constructor for each row of spec/opcode_table.json (30_encoding.md R112).
A command carries no immediate and no register number (R111), so no constructor has an argument. -/

namespace Sys2Proof

/-- A command of the opcode map (30_encoding.md R112). -/
inductive Instr where
  /-- NOP, opc 0x00 (40_service.md R171). -/
  | nop
  /-- GEN_V4, opc 0x01 (42_generate.md R213). -/
  | genV4
  /-- GEN_V7, opc 0x02 (42_generate.md R214). -/
  | genV7
  /-- GEN_V7_AT, opc 0x03 (42_generate.md R215). -/
  | genV7At
  /-- GEN_V7_STRICT, opc 0x04 (42_generate.md R216). -/
  | genV7Strict
  /-- GET_VERSION, opc 0x08 (41_fields.md R191). -/
  | getVersion
  /-- GET_VARIANT, opc 0x09 (41_fields.md R192). -/
  | getVariant
  /-- GET_TIME, opc 0x0A (41_fields.md R193). -/
  | getTime
  /-- SHIFT, opc 0x10 (43_repack.md R241). -/
  | shift
  /-- SHIFT_B32, opc 0x11 (43_repack.md R242). -/
  | shiftB32
  /-- SHIFT_B64, opc 0x12 (43_repack.md R243). -/
  | shiftB64
  /-- UNSHIFT, opc 0x14 (43_repack.md R245). -/
  | unshift
  /-- UNSHIFT_B32, opc 0x15 (43_repack.md R246). -/
  | unshiftB32
  /-- UNSHIFT_B64, opc 0x16 (43_repack.md R247). -/
  | unshiftB64
  /-- PARSE, opc 0x20 (44_parse.md R271). -/
  | parse
  /-- PARSE_SHORT, opc 0x21 (44_parse.md R292). -/
  | parseShort
  /-- FROM_BYTES, opc 0x22 (44_parse.md R291). -/
  | fromBytes
  /-- FMT_CANONICAL, opc 0x30 (45_format.md R321). -/
  | fmtCanonical
  /-- FMT_C32, opc 0x31 (45_format.md R322). -/
  | fmtC32
  /-- FMT_C64, opc 0x32 (45_format.md R323). -/
  | fmtC64
  /-- FMT_SHORT, opc 0x33 (45_format.md R324). -/
  | fmtShort
  /-- FMT_RAW, opc 0x34 (45_format.md R325). -/
  | fmtRaw
  /-- FMT_JSON, opc 0x35 (45_format.md R326). -/
  | fmtJson
  /-- TEST_RESEED, opc 0x7F (40_service.md R172). -/
  | testReseed
  deriving DecidableEq, Repr

end Sys2Proof
end

