-- ==== Sys2Proof/WellFormed.lean ====
section
/-! DEFINITION. The spec's own well-formedness checks: of an identifier (00_scope.md R19), of a command in a mode
(30_encoding.md R114), and of the fields a register stores, which the invariant of Safety.lean uses. -/

namespace Sys2Proof

/-- nil: 16 bytes 0x00 (00_scope.md R18). -/
def Ident.nil : Ident := Vector.replicate 16 0x00#8

/-- max: 16 bytes 0xFF (00_scope.md R18). -/
def Ident.max : Ident := Vector.replicate 16 0xFF#8

/-- A well-formed identifier: nil, or max, or version 4 or 7 with the variant bits `10` (00_scope.md R19). -/
def Ident.wellFormed (b : Ident) : Bool :=
  b == Ident.nil || b == Ident.max ||
    ((b[6].extractLsb' 4 4 == 4#4 || b[6].extractLsb' 4 4 == 7#4) && b[8].extractLsb' 6 2 == 2#2)

/-- A command is well-formed as syntax with no further condition: it has no operand fields (30_encoding.md R111). -/
def Instr.wellFormed (_ : Instr) : Bool := true

/-- Whether a command is legal with G.TESTMODE = `testMode`: all are but TEST_RESEED in production
(30_encoding.md R114, R115). -/
def Instr.legalIn (testMode : Bool) (i : Instr) : Bool := i != .testReseed || testMode

end Sys2Proof
end

