-- ==== Sys2Proof/Decode.lean ====
section
/-! DEFINITION. The command encoding CMD8 (30_encoding.md R110 to R115): the decoder, total on every 32-bit word, and
after it the encoder. -/

namespace Sys2Proof

/-- Why the decoder rejects a command word. -/
inductive DecodeError where
  /-- The opcode is not in the map of R112 (R113); the port completes with IllegalCommand. -/
  | illegalOpcode (opc : Byte)
  deriving DecidableEq, Repr

/-- The opcode field `opc` = bits [7:0] of a command word; bits [31:8] are ignored (R110). -/
def opcodeField (w : Word) : Byte := w.extractLsb' 0 8

/-- The opcode map (R112). Every opcode outside it is illegal (R113). -/
def decodeOpcode (opc : Byte) : Except DecodeError Instr :=
  match opc.toNat with
  | 0x00 => .ok .nop
  | 0x01 => .ok .genV4
  | 0x02 => .ok .genV7
  | 0x03 => .ok .genV7At
  | 0x04 => .ok .genV7Strict
  | 0x08 => .ok .getVersion
  | 0x09 => .ok .getVariant
  | 0x0A => .ok .getTime
  | 0x10 => .ok .shift
  | 0x11 => .ok .shiftB32
  | 0x12 => .ok .shiftB64
  | 0x14 => .ok .unshift
  | 0x15 => .ok .unshiftB32
  | 0x16 => .ok .unshiftB64
  | 0x20 => .ok .parse
  | 0x21 => .ok .parseShort
  | 0x22 => .ok .fromBytes
  | 0x30 => .ok .fmtCanonical
  | 0x31 => .ok .fmtC32
  | 0x32 => .ok .fmtC64
  | 0x33 => .ok .fmtShort
  | 0x34 => .ok .fmtRaw
  | 0x35 => .ok .fmtJson
  | 0x7F => .ok .testReseed
  | _ => .error (.illegalOpcode opc)

/-- The decoder of a command word written to CMD (R110). -/
def decodeWord (w : Word) : Except DecodeError Instr := decodeOpcode (opcodeField w)

/-- The illegal opcodes, range by range as R113 lists them. -/
def illegalRange (opc : Byte) : Bool :=
  let n := opc.toNat
  (0x05 ≤ n && n ≤ 0x07) || (0x0B ≤ n && n ≤ 0x0F) || n == 0x13 || (0x17 ≤ n && n ≤ 0x1F) ||
    (0x23 ≤ n && n ≤ 0x2F) || (0x36 ≤ n && n ≤ 0x7E) || 0x80 ≤ n

/-- The opcode of a command (R112). -/
def opcodeOf : Instr → Byte
  | .nop => 0x00
  | .genV4 => 0x01
  | .genV7 => 0x02
  | .genV7At => 0x03
  | .genV7Strict => 0x04
  | .getVersion => 0x08
  | .getVariant => 0x09
  | .getTime => 0x0A
  | .shift => 0x10
  | .shiftB32 => 0x11
  | .shiftB64 => 0x12
  | .unshift => 0x14
  | .unshiftB32 => 0x15
  | .unshiftB64 => 0x16
  | .parse => 0x20
  | .parseShort => 0x21
  | .fromBytes => 0x22
  | .fmtCanonical => 0x30
  | .fmtC32 => 0x31
  | .fmtC64 => 0x32
  | .fmtShort => 0x33
  | .fmtRaw => 0x34
  | .fmtJson => 0x35
  | .testReseed => 0x7F

/-- The encoder: the command word of a command with its ignored bits zero (R110). -/
def encode (i : Instr) : Word := (opcodeOf i).setWidth 32

/-- The command word of an opcode-table row's bits: the bits above `nbits` are zero. -/
def tableWord (nbits w : Nat) : Word := BitVec.ofNat 32 (w % 2 ^ nbits)

/-- What the decoder reads from a command whose bits are `w` (the host's question). -/
def decodeTableWord (nbits w : Nat) : Option Instr :=
  match decodeWord (tableWord nbits w) with
  | .ok i => some i
  | .error _ => none

end Sys2Proof
end

