-- ==== Sys2Proof/Config.lean ====
section
/-! DEFINITION. What an implementation or the outside world fixes: the spec's open parameters and input draws as
constants without a body, and the two switches the spec fixes. -/

namespace Sys2Proof

/-- One atomic step of the interleaving of 20_memory.md R96, as the outside world or the schedule offers it. -/
inductive Event where
  /-- The host reads `bytes` bytes at the absolute address `addr` (R80, R81). -/
  | read (addr : Nat) (bytes : Nat)
  /-- The host writes `bytes` bytes at the absolute address `addr`; `value` is the data of a 32-bit write. -/
  | write (addr : Nat) (bytes : Nat) (value : Word)
  /-- The port `port` takes its perform, acquire or spin step, if it has one. -/
  | portStep (port : Nat)
  /-- The seeding sequencer takes its step, if it has one (40_service.md R173). -/
  | seedStep
  /-- Reset is asserted; `strap` is the TEST_MODE strap it samples (70_reset_and_hazards.md R390). -/
  | reset (strap : Bool)
  deriving DecidableEq, Repr, Inhabited

/-- How QUOTE_STRIP strips JSON quotes (00_scope.md R12). -/
inductive QuoteStrip where
  /-- Only a matched pair is stripped. -/
  | paired
  /-- Each end is stripped alone. -/
  | independent
  deriving DecidableEq, Repr

namespace Config

/-- N_PORTS - 1, so that N_PORTS is 1 to 15 (00_scope.md R7). Free: log 6. -/
opaque extraPorts : Fin 15

/-- BASE / 4096 (20_memory.md R80). Free: log 7. -/
opaque basePage : Nat

/-- The TEST_MODE strap at the reset that `State.reset` stands for (00_scope.md R9). Free: log 9. -/
opaque testModeStrap : Bool

/-- PRNG_BYTES(seed, pos, n), an uninterpreted total function (00_scope.md R10). Free: log 5. -/
opaque prngBytes (seed : Seed) (pos : Nat) (n : Nat) : Vector Byte n

/-- The n-th draw of CLOCK, a signed 64-bit count of nanoseconds (00_scope.md R11). Free: log 4. -/
opaque clock (n : Nat) : BitVec 64

/-- The n-th draw of ENTROPY: 32 bytes, or `none` for `short` (00_scope.md R11). Free: log 4. -/
opaque entropy (n : Nat) : Option Seed

/-- The n-th step of the interleaving, which the spec does not fix (20_memory.md R96, R99). Free: log 2. -/
opaque schedule (n : Nat) : Event

/-- QUOTE_STRIP, fixed by 00_scope.md R12. -/
def quoteStrip : QuoteStrip := .paired

/-- COMPACT_TAIL_STRICT, fixed by 00_scope.md R13. -/
def compactTailStrict : Bool := false

end Config

end Sys2Proof
end

