-- ==== Sys2Proof/Machine/State.lean ====
section
/-! DEFINITION. The machine's state as plain data: all that 10_state.md gives UIDE-1, the model's own record of the
outside world, the reasons a step can stop, and the state right after reset. -/

namespace Sys2Proof.Machine

/-- Why a step stops with a fault. -/
inductive Fault where
  /-- Raised by a bus access whose address lies outside the 4096 bytes from BASE: what is there is the platform's
  (20_memory.md R89). Safe: the block itself never does this, and nothing is claimed about the platform. -/
  | outsideRegisterSpace (addr : Nat)
  deriving DecidableEq, Repr

/-- Why a step is refused. -/
inductive Refusal where
  /-- Raised by an arm of `exec` for a command without a meaning. Safe; no arm uses it. -/
  | notModelled (mnemonic : String)
  deriving DecidableEq, Repr

/-- The recoverable parse failures (60_exceptions.md R350). -/
inductive ParseError where
  /-- Code 1. -/
  | malformedLength
  /-- Code 2. -/
  | malformedSeparator
  /-- Code 3. -/
  | unsupportedVersion
  /-- Code 4. -/
  | invalidVariant
  /-- Code 5. -/
  | invalidDigit
  deriving DecidableEq, Repr

/-- The fatal events (60_exceptions.md R350). -/
inductive FatalCause where
  /-- Code 6. -/
  | entropyInitFailure
  /-- Code 7. -/
  | preEpochTime
  deriving DecidableEq, Repr

/-- G.PHASE (10_state.md R32). -/
inductive Phase where
  | seeding
  | ready
  | fatal
  deriving DecidableEq, Repr

/-- p.SEQ, the counterpart of a program counter (10_state.md R39). -/
inductive Seq where
  | idle
  | busy (op : Byte)
  | strictAcq
  | strictSpin
  deriving DecidableEq, Repr

/-- The answer to the last bus access; the model's own (log 8). -/
inductive BusResponse where
  /-- No access yet. -/
  | none
  /-- The data of a read. -/
  | data (value : Word)
  /-- A write was taken by the block. -/
  | done
  /-- The bus error of 20_memory.md R81. -/
  | error
  deriving DecidableEq, Repr

/-- The model's own record of the outside world; no part of the block (log 2, 4, 8, 17). -/
structure Env where
  /-- The port whose step is being taken (log 17). -/
  cur : Nat
  /-- The next steps of the interleaving that are already chosen (log 2). -/
  events : List Event
  /-- How many steps were taken: the index into the free schedule (log 2). -/
  eventNo : Nat
  /-- CLOCK values already given, next first (log 4). -/
  clockIn : List (BitVec 64)
  /-- How many CLOCK draws were made (log 4). -/
  clockNo : Nat
  /-- ENTROPY draws already given, next first (log 4). -/
  entropyIn : List (Option Seed)
  /-- How many ENTROPY draws were made (log 4). -/
  entropyNo : Nat
  /-- The answer to the last bus access (log 8). -/
  resp : BusResponse
  deriving DecidableEq, Repr

/-- The shared state G (10_state.md R31 to R38). -/
structure Shared where
  /-- G.PHASE (R32). -/
  phase : Phase
  /-- G.FATAL_CAUSE (R33). -/
  fatalCause : BitVec 4
  /-- G.TESTMODE (R34). -/
  testMode : Bool
  /-- G.SEED (R35). -/
  seed : Seed
  /-- G.RNG_POS (R35). -/
  rngPos : BitVec 64
  /-- G.LAST_MS (R36). -/
  lastMs : BitVec 48
  /-- G.LAST_SLOT (R36). -/
  lastSlot : BitVec 12
  /-- G.LOCK: `none` or the holder's index (R37). -/
  lock : Option Nat
  /-- G.TEST_CLOCK (R38). -/
  testClock : BitVec 64
  /-- G.TEST_SEED (R38). -/
  testSeed : Seed
  deriving DecidableEq, Repr

/-- The private state of one port (10_state.md R39 to R48). STATUS.BUSY, READY, FATAL and WAITING are views (log 12). -/
structure Port where
  /-- p.SEQ (R39). -/
  seq : Seq
  /-- p.STATUS.DONE (R48). -/
  done : Bool
  /-- p.STATUS.OVR (R48). -/
  ovr : Bool
  /-- p.STATUS.ERR (R48). -/
  err : BitVec 4
  /-- p.ID (R41). -/
  id : Ident
  /-- p.IBUF (R42). -/
  ibuf : Buffer
  /-- p.ILEN (R42). -/
  ilen : BitVec 8
  /-- p.OBUF (R43). -/
  obuf : Buffer
  /-- p.OLEN (R43). -/
  olen : BitVec 8
  /-- p.ARG_NS, read as signed (R44). -/
  argNs : BitVec 64
  /-- p.ARG_VER (R45). -/
  argVer : BitVec 4
  /-- p.RES_VER (R46). -/
  resVer : BitVec 4
  /-- p.RES_VAR (R46). -/
  resVar : BitVec 2
  /-- p.TS_VALID (R46). -/
  tsValid : Bool
  /-- p.TS_MS (R47). -/
  tsMs : BitVec 48
  /-- p.TS_SUBNS (R47). -/
  tsSubns : BitVec 20
  deriving DecidableEq, Repr

/-- The whole machine. `base` and the number of ports are build parameters and never change. -/
structure State where
  /-- BASE (20_memory.md R80). -/
  base : Nat
  /-- The shared state (10_state.md R31). -/
  g : Shared
  /-- The ports P0 to P(N_PORTS-1); N_PORTS is the list's length (10_state.md R30). -/
  ports : List Port
  /-- The model's record of the outside world. -/
  env : Env
  deriving DecidableEq, Repr

/-- The shared state after reset with the strap `strap` (10_state.md R54); `seed` is what G.SEED holds, which reset
does not set (log 10). -/
def Shared.reset (strap : Bool) (seed : Seed) : Shared where
  phase := .seeding
  fatalCause := 0
  testMode := strap
  seed := seed
  rngPos := 0
  lastMs := 0
  lastSlot := 0
  lock := none
  testClock := 0
  testSeed := Vector.replicate 32 0

/-- A port after reset (10_state.md R54). -/
def Port.reset : Port where
  seq := .idle
  done := false
  ovr := false
  err := 0
  id := Ident.nil
  ibuf := Vector.replicate 64 0
  ilen := 0
  obuf := Vector.replicate 64 0
  olen := 0
  argNs := 0
  argVer := 0
  resVer := 0
  resVar := 0
  tsValid := false
  tsMs := 0
  tsSubns := 0

/-- The outside world before anything happened; the model's own (log 2, 4, 8, 17). -/
def Env.initial : Env where
  cur := 0
  events := []
  eventNo := 0
  clockIn := []
  clockNo := 0
  entropyIn := []
  entropyNo := 0
  resp := .none

/-- The machine right after reset (10_state.md R54, 70_reset_and_hazards.md R390). Port 0 always exists, since
N_PORTS >= 1. G.SEED has no reset value in the spec: DESIGN CHOICE zeros (log 10). -/
def State.reset : State where
  base := 4096 * Config.basePage
  g := Shared.reset Config.testModeStrap (Vector.replicate 32 0)
  ports := Port.reset :: List.replicate Config.extraPorts.val Port.reset
  env := Env.initial

end Sys2Proof.Machine
end

