-- ==== Sys2Proof/Machine/Flags.lean ====
section
/-! DEFINITION. Result codes and the status words: STATUS, GSTATUS and RES (10_state.md R48, R49; 60_exceptions.md
R350; 20_memory.md R87). -/

namespace Sys2Proof.Machine

/-- The code of a recoverable failure (60_exceptions.md R350). -/
def ParseError.code : ParseError → BitVec 4
  | .malformedLength => 1
  | .malformedSeparator => 2
  | .unsupportedVersion => 3
  | .invalidVariant => 4
  | .invalidDigit => 5

/-- The code of a fatal event (60_exceptions.md R350). -/
def FatalCause.code : FatalCause → BitVec 4
  | .entropyInitFailure => 6
  | .preEpochTime => 7

/-- Code 8, IllegalCommand (60_exceptions.md R350). -/
def illegalCommandCode : BitVec 4 := 8

/-- STATUS.BUSY: 1 while SEQ != IDLE (10_state.md R48). -/
def Port.isBusy (p : Port) : Bool := p.seq != .idle

/-- STATUS.WAITING: 1 while SEQ is STRICT_ACQ or STRICT_SPIN (10_state.md R48). -/
def Port.isWaiting (p : Port) : Bool := p.seq == .strictAcq || p.seq == .strictSpin

/-- GSTATUS.READY (10_state.md R49). -/
def Shared.isReady (g : Shared) : Bool := g.phase == .ready

/-- GSTATUS.FATAL (10_state.md R49). -/
def Shared.isFatal (g : Shared) : Bool := g.phase == .fatal

/-- The STATUS register of a port, high field first (10_state.md R48). -/
def statusWord (g : Shared) (p : Port) : Word :=
  0#21 ++ bit p.isWaiting ++ bit g.isFatal ++ bit g.isReady ++ p.err ++ 0#1 ++ bit p.ovr ++ bit p.done ++
    bit p.isBusy

/-- The GSTATUS register, high field first (10_state.md R49). -/
def gstatusWord (g : Shared) (nPorts : Nat) : Word :=
  0#12 ++ BitVec.ofNat 4 nPorts ++ 0#4 ++ BitVec.ofNat 4 (g.lock.getD 0) ++ g.fatalCause ++ bit g.lock.isSome ++
    bit g.testMode ++ bit g.isFatal ++ bit g.isReady

/-- The RES register of a port, high field first (20_memory.md R87). -/
def resWord (p : Port) : Word := 0#23 ++ bit p.tsValid ++ 0#2 ++ p.resVar ++ p.resVer

end Sys2Proof.Machine
end

