-- ==== Sys2Proof/Machine/Operands.lean ====
section
/-! DEFINITION. Operand and result forms: bit fields of bytes, byte lanes of bus words, positional numbers,
alphabets, character classes, and the check of a decoded identifier. -/

namespace Sys2Proof.Machine

/-- `hi_nibble(y) = y[7:4]` (00_scope.md R15). -/
def hiNibble (y : Byte) : BitVec 4 := y.extractLsb' 4 4

/-- `lo_nibble(y) = y[3:0]` (00_scope.md R15). -/
def loNibble (y : Byte) : BitVec 4 := y.extractLsb' 0 4

/-- The version nibble (00_scope.md R20). -/
def versionOf (b : Ident) : BitVec 4 := hiNibble b[6]

/-- The two variant bits `b[8][7:6]` (00_scope.md R20, 90_conflicts.md C5). -/
def variantOf (b : Ident) : BitVec 2 := b[8].extractLsb' 6 2

/-- The variant nibble `b[8][7:4]` (00_scope.md R20, 90_conflicts.md C1). -/
def variantNibbleOf (b : Ident) : BitVec 4 := hiNibble b[8]

/-- The 48-bit millisecond field (30_encoding.md R117). -/
def msOf (b : Ident) : BitVec 48 := b[0] ++ b[1] ++ b[2] ++ b[3] ++ b[4] ++ b[5]

/-- The 12-bit slot field rand_a (30_encoding.md R117). -/
def slotOf (b : Ident) : BitVec 12 := loNibble b[6] ++ b[7]

/-- A byte array of `n` elements from a list: its first `n` bytes, 0x00 past its end (10_state.md R43). -/
def bytesPadded (n : Nat) (l : List Byte) : Vector Byte n :=
  ⟨⟨(l ++ List.replicate n 0).take n⟩, by simp⟩

/-! ### Byte lanes and halves on the bus (20_memory.md R84, R85) -/

/-- Element `i` of a byte array; 0 past its end. -/
def byteAt {n : Nat} (v : Vector Byte n) (i : Nat) : Byte := v[i]?.getD 0

/-- Word `j` of a byte array: element 4j+i in bits [8i+7:8i] (R84). -/
def laneWord {n : Nat} (v : Vector Byte n) (j : Nat) : Word :=
  byteAt v (4 * j + 3) ++ byteAt v (4 * j + 2) ++ byteAt v (4 * j + 1) ++ byteAt v (4 * j)

/-- The array after word `j` is written with `w` (R84). -/
def setLaneWord {n : Nat} (v : Vector Byte n) (j : Nat) (w : Word) : Vector Byte n :=
  (((v.setIfInBounds (4 * j) (w.extractLsb' 0 8)).setIfInBounds (4 * j + 1) (w.extractLsb' 8 8)).setIfInBounds
    (4 * j + 2) (w.extractLsb' 16 8)).setIfInBounds (4 * j + 3) (w.extractLsb' 24 8)

/-- The low word of a 64-bit register (R85). -/
def loWord (v : BitVec 64) : Word := v.extractLsb' 0 32

/-- The high word of a 64-bit register (R85). -/
def hiWord (v : BitVec 64) : Word := v.extractLsb' 32 32

/-- A 64-bit register after its low word is written (R85). -/
def setLoWord (v : BitVec 64) (w : Word) : BitVec 64 := hiWord v ++ w

/-- A 64-bit register after its high word is written (R85). -/
def setHiWord (v : BitVec 64) (w : Word) : BitVec 64 := w ++ loWord v

/-! ### Positional numbers -/

/-- The `len` digits of `n` in base `base`, most significant first. -/
def digitsBE (base : Nat) : Nat → Nat → List Nat
  | 0, _ => []
  | len + 1, n => digitsBE base len (n / base) ++ [n % base]

/-- The number with these digits in base `base`, most significant first. -/
def numberBE (base : Nat) (ds : List Nat) : Nat := ds.foldl (fun acc d => acc * base + d) 0

/-- The bytes of a string as numbers. -/
def byteValues (l : List Byte) : List Nat := l.map BitVec.toNat

/-- The numeric value U of an identifier (00_scope.md R14). -/
def numberOfIdent (b : Ident) : Nat := numberBE 256 (byteValues b.toList)

/-- The `len` bytes of a number, big-endian. -/
def bytesOfNumber (len n : Nat) : List Byte := (digitsBE 256 len n).map (BitVec.ofNat 8)

/-- The identifier with numeric value `n` (00_scope.md R14). -/
def identOfNumber (n : Nat) : Ident := bytesPadded 16 (bytesOfNumber 16 n)

/-! ### Characters and alphabets -/

/-- The ASCII byte of a character (00_scope.md R16). -/
def ascii (c : Char) : Byte := BitVec.ofNat 8 c.toNat

/-- The bytes of an ASCII string (00_scope.md R16). -/
def text (s : String) : List Byte := s.toList.map ascii

/-- `upper(c)`: ASCII letters only (00_scope.md R16, 44_parse.md R289). -/
def upper (c : Byte) : Byte := if 0x61 ≤ c.toNat ∧ c.toNat ≤ 0x7A then c - 0x20 else c

/-- `lower(c)`: ASCII letters only (00_scope.md R16). -/
def lower (c : Byte) : Byte := if 0x41 ≤ c.toNat ∧ c.toNat ≤ 0x5A then c + 0x20 else c

/-- `eq_ci(x, y)` (44_parse.md R289). -/
def eqCi (x y : List Byte) : Bool := x.map upper == y.map upper

/-- The lower-case hex digits (30_encoding.md R122). -/
def hexDigits : List Byte := text "0123456789abcdef"

/-- ALPHA32 (30_encoding.md R124). -/
def alpha32 : List Byte := text "ABCDEFGHIJKLMNOPQRSTUVWXYZ234567"

/-- ALPHA64 (30_encoding.md R125). -/
def alpha64 : List Byte := text "ABCDEFGHIJKLMNOPQRSTUVWXYZabcdefghijklmnopqrstuvwxyz0123456789-_"

/-- ALPHA57 (30_encoding.md R128). -/
def alpha57 : List Byte := text "23456789ABCDEFGHJKLMNPQRSTUVWXYZabcdefghijkmnopqrstuvwxyz"

/-- Symbol `n` of an alphabet. -/
def symbol (alphabet : List Byte) (n : Nat) : Byte := alphabet.getD n 0

/-- The value of a character in an alphabet, if it is one of its symbols. -/
def symbolValue (alphabet : List Byte) (c : Byte) : Option Nat := alphabet.idxOf? c

/-- The value of a hex digit of either case (30_encoding.md R122). -/
def hexValue (c : Byte) : Option Nat := symbolValue hexDigits (lower c)

/-- The value of a base-32 digit of either case (30_encoding.md R124, 44_parse.md R284). -/
def base32Value (c : Byte) : Option Nat := symbolValue alpha32 (upper c)

/-- The value of a base-64 digit (30_encoding.md R125, 44_parse.md R285). -/
def base64Value (c : Byte) : Option Nat := symbolValue alpha64 c

/-- The value of a base-57 digit (30_encoding.md R128, 44_parse.md R296). -/
def base57Value (c : Byte) : Option Nat := symbolValue alpha57 c

/-- The values of all characters of a string; `none` if some character is no digit. -/
def digitValues (value : Byte → Option Nat) : List Byte → Option (List Nat)
  | [] => some []
  | c :: cs =>
    match value c, digitValues value cs with
    | some d, some ds => some (d :: ds)
    | _, _ => none

/-- `s[i..i+len-1]`. -/
def slice (s : List Byte) (i len : Nat) : List Byte := (s.drop i).take len

/-- `s[i]`; 0 past the end. -/
def charAt (s : List Byte) (i : Nat) : Byte := s.getD i 0

/-! ### The fixed literals (00_scope.md R18) -/

/-- NIL_CANON. -/
def nilCanon : List Byte := text "00000000-0000-0000-0000-000000000000"

/-- MAX_CANON. -/
def maxCanon : List Byte := text "ffffffff-ffff-ffff-ffff-ffffffffffff"

/-- NIL_C32. -/
def nilC32 : List Byte := text "AAAAAAAAAAAAAAAAAAAAAAAAAA"

/-- MAX_C32. -/
def maxC32 : List Byte := text "P777777777777777777777777P"

/-- NIL_C64. -/
def nilC64 : List Byte := text "AAAAAAAAAAAAAAAAAAAAAA"

/-- MAX_C64. -/
def maxC64 : List Byte := text "P____________________P"

/-- NIL_S57. -/
def nilS57 : List Byte := text "2222222222222222222222"

/-- MAX_S57. -/
def maxS57 : List Byte := text "oZEq7ovRbLq6UnGMPwc8B5"

/-! ### String preparation and the check of a decoded value -/

/-- The quote byte `"` = 0x22. -/
def quoteByte : Byte := 0x22

/-- `strip_quotes` (44_parse.md R272); `independent` is the other value of the switch (00_scope.md R12). -/
def stripQuotes (mode : QuoteStrip) (s : List Byte) : List Byte :=
  match mode with
  | .paired =>
    if 2 ≤ s.length ∧ charAt s 0 = quoteByte ∧ charAt s (s.length - 1) = quoteByte then
      slice s 1 (s.length - 2)
    else s
  | .independent =>
    let t := if s.head? = some quoteByte then s.drop 1 else s
    if t.getLast? = some quoteByte then t.dropLast else t

/-- The whitespace bytes SP, HT, LF, VT, FF and CR (44_parse.md R293). -/
def isSpace (c : Byte) : Bool :=
  c == 0x20 || c == 0x09 || c == 0x0A || c == 0x0B || c == 0x0C || c == 0x0D

/-- `trim(s)` (44_parse.md R293). -/
def trim (s : List Byte) : List Byte := ((s.dropWhile isSpace).reverse.dropWhile isSpace).reverse

/-- `validate(b)` (44_parse.md R290): the failure of a value that is not well-formed, nil and max first, then version
before variant. -/
def validate (b : Ident) : Option ParseError :=
  if b = Ident.nil ∨ b = Ident.max then none
  else if ¬ (versionOf b = 4 ∨ versionOf b = 7) then some .unsupportedVersion
  else if variantOf b ≠ 2 then some .invalidVariant
  else none

end Sys2Proof.Machine
end

