-- ==== Sys2Proof/Machine/Ops.lean ====
section
/-! DEFINITION. The operations every command is built from: access to the port whose step it is, the ends of a command
(complete, Fail, Fatal, IllegalCommand), the services Fill and Now, and the buffers. -/

namespace Sys2Proof.Machine

/-! ### Ports and shared state -/

/-- The port whose step is being taken. -/
def State.port (s : State) : Port := s.ports.getD s.env.cur Port.reset

/-- The machine with the current port's state replaced. -/
def State.setPort (s : State) (p : Port) : State := { s with ports := s.ports.set s.env.cur p }

/-- The machine with the shared state replaced. -/
def State.setShared (s : State) (g : Shared) : State := { s with g := g }

/-- The machine with the model's record of the outside world replaced. -/
def State.setEnv (s : State) (e : Env) : State := { s with env := e }

/-- N_PORTS (00_scope.md R7). -/
def State.nPorts (s : State) : Nat := s.ports.length

/-! ### Ending a command (60_exceptions.md §2, §3): the exceptions of this machine -/

/-- `complete(p, err)` on the port's own state (R356); BUSY and WAITING follow SEQ. -/
def Port.complete (p : Port) (err : BitVec 4) : Port := { p with err := err, done := true, seq := .idle }

/-- `raise Fail(code)` on the port's own state: ID <- nil, then complete (R357). -/
def Port.fail (p : Port) (e : ParseError) : Port := Port.complete { p with id := Ident.nil } e.code

/-- `raise Fatal(cause)` on the shared state (R360). -/
def Shared.raiseFatal (g : Shared) (c : FatalCause) : Shared := { g with fatalCause := c.code, phase := .fatal }

/-- The command ends normally with the port's results `p`: `complete(p, 0)` (R356). -/
def State.completeWith (s : State) (p : Port) : State := s.setPort (p.complete 0)

/-- `raise Fail(code)` by the current port (R357). -/
def State.raiseFail (s : State) (e : ParseError) : State := s.setPort (s.port.fail e)

/-- `raise Fatal(cause)`: only FATAL_CAUSE and PHASE change (R360). -/
def State.raiseFatal (s : State) (c : FatalCause) : State := s.setShared (s.g.raiseFatal c)

/-- IllegalCommand: `complete(p, 8)` and nothing else (R358, 30_encoding.md R113). -/
def State.illegalCommand (s : State) : State := s.setPort (s.port.complete illegalCommandCode)

/-- The end of a parse command: ID <- the value and complete, or Fail (44_parse.md R270). -/
def State.finishParse (s : State) : Except ParseError Ident → State
  | .ok b => s.completeWith { s.port with id := b }
  | .error e => s.raiseFail e

/-! ### Inputs, Fill and Now -/

/-- The next value of an input: the first one already given, or else the oracle's at this draw's index (log 4). -/
def nextInput {α : Type} (oracle : Nat → α) (given : List α) (n : Nat) : α := given.headD (oracle n)

/-- One draw of CLOCK (60_exceptions.md R372). -/
def State.clockValue (s : State) : BitVec 64 := nextInput Config.clock s.env.clockIn s.env.clockNo

/-- The machine after one draw of CLOCK. -/
def State.afterClock (s : State) : State :=
  s.setEnv { s.env with clockIn := s.env.clockIn.tail, clockNo := s.env.clockNo + 1 }

/-- One draw of ENTROPY (60_exceptions.md R371). -/
def State.entropyValue (s : State) : Option Seed := nextInput Config.entropy s.env.entropyIn s.env.entropyNo

/-- The machine after one draw of ENTROPY. -/
def State.afterEntropy (s : State) : State :=
  s.setEnv { s.env with entropyIn := s.env.entropyIn.tail, entropyNo := s.env.entropyNo + 1 }

/-- The value of `Now()`: TEST_CLOCK in test mode, else a draw of CLOCK (40_service.md R177, R178). -/
def State.nowValue (s : State) : BitVec 64 := if s.g.testMode then s.g.testClock else s.clockValue

/-- The machine after `Now()`: CLOCK is drawn in production only (R177, R178). -/
def State.afterNow (s : State) : State := if s.g.testMode then s else s.afterClock

/-- The bytes `Fill(n)` returns (40_service.md R175). -/
def State.fillBytes (s : State) (n : Nat) : Vector Byte n := Config.prngBytes s.g.seed s.g.rngPos.toNat n

/-- The machine after `Fill(n)`: RNG_POS advances by n, modulo 2^64 (R175). -/
def State.afterFill (s : State) (n : Nat) : State :=
  s.setShared { s.g with rngPos := s.g.rngPos + BitVec.ofNat 64 n }

/-- SEED <- `seed` and RNG_POS <- 0 (40_service.md R172, R173). -/
def Shared.loadSeed (g : Shared) (seed : Seed) : Shared := { g with seed := seed, rngPos := 0 }

/-! ### Buffers -/

/-- The input string `IBUF[0..ILEN-1]` (10_state.md R42). -/
def Port.input (p : Port) : List Byte := p.ibuf.toList.take p.ilen.toNat

/-- `IBUF[0..15]` (44_parse.md R291, 43_repack.md R245). -/
def Port.input16 (p : Port) : Ident := bytesPadded 16 (p.ibuf.toList.take 16)

/-- ILEN > IBUF_SIZE (44_parse.md R271). -/
def Port.inputTooLong (p : Port) : Bool := 64 < p.ilen.toNat

/-- OBUF and OLEN take the output `f`, OBUF zero past it (45_format.md R320). -/
def Port.setOutput (p : Port) (f : List Byte) : Port :=
  { p with obuf := bytesPadded 64 f, olen := BitVec.ofNat 8 f.length }

end Sys2Proof.Machine
end

