-- ==== Sys2Proof/Machine/Bus.lean ====
section
/-! DEFINITION. The register space: the address map, reads, writes and command acceptance (20_memory.md). -/

namespace Sys2Proof.Machine

/-- A block-wide register (20_memory.md R86). -/
inductive GlobalReg where
  | gstatus
  | lastLo
  | lastHi
  | testClockLo
  | testClockHi
  | testSeed (j : Nat)
  deriving DecidableEq, Repr

/-- A register of a port's window (20_memory.md R87). -/
inductive PortReg where
  | cmd
  | status
  | ilen
  | olen
  | id (j : Nat)
  | argNsLo
  | argNsHi
  | argVer
  | res
  | tsMsLo
  | tsMsHi
  | tsSubns
  | ibuf (j : Nat)
  | obuf (j : Nat)
  deriving DecidableEq, Repr

/-- What stands at an offset of the register space. -/
inductive Target where
  /-- A block-wide register. -/
  | global (r : GlobalReg)
  /-- A register of port `p`'s window, whether or not the port exists. -/
  | port (p : Nat) (r : PortReg)
  /-- A reserved or unmapped offset (R82). -/
  | reserved
  deriving DecidableEq, Repr

/-- The block-wide map (R86), for an aligned offset below 0x100. -/
def globalTarget (off : Nat) : Target :=
  if off = 0x000 then .global .gstatus
  else if off = 0x008 then .global .lastLo
  else if off = 0x00C then .global .lastHi
  else if off = 0x010 then .global .testClockLo
  else if off = 0x014 then .global .testClockHi
  else if 0x020 ≤ off ∧ off < 0x040 then .global (.testSeed ((off - 0x020) / 4))
  else .reserved

/-- The window's map (R87), for an aligned offset `w` below 0x100 in port `p`'s window. -/
def windowTarget (p w : Nat) : Target :=
  if w = 0x00 then .port p .cmd
  else if w = 0x04 then .port p .status
  else if w = 0x08 then .port p .ilen
  else if w = 0x0C then .port p .olen
  else if 0x10 ≤ w ∧ w < 0x20 then .port p (.id ((w - 0x10) / 4))
  else if w = 0x20 then .port p .argNsLo
  else if w = 0x24 then .port p .argNsHi
  else if w = 0x28 then .port p .argVer
  else if w = 0x2C then .port p .res
  else if w = 0x30 then .port p .tsMsLo
  else if w = 0x34 then .port p .tsMsHi
  else if w = 0x38 then .port p .tsSubns
  else if 0x40 ≤ w ∧ w < 0x80 then .port p (.ibuf ((w - 0x40) / 4))
  else if 0x80 ≤ w ∧ w < 0xC0 then .port p (.obuf ((w - 0x80) / 4))
  else .reserved

/-- The address map: block-wide registers below 0x100, then the window of port p at W(p) = 0x100 * (p + 1) (R86, R87). -/
def targetOf (off : Nat) : Target :=
  if off < 0x100 then globalTarget off else windowTarget (off / 0x100 - 1) (off % 0x100)

/-- W(p) (R87, 60_exceptions.md R375). -/
def windowOffset (p : Nat) : Nat := 0x100 * (p + 1)

/-! ### Reads (R82, R88, R90) -/

/-- The value of a block-wide register (R86); the test registers read 0 in production (R82). -/
def readGlobal (s : State) : GlobalReg → Word
  | .gstatus => gstatusWord s.g s.nPorts
  | .lastLo => s.g.lastMs.extractLsb' 0 32
  | .lastHi => 0#4 ++ s.g.lastSlot ++ s.g.lastMs.extractLsb' 32 16
  | .testClockLo => if s.g.testMode then loWord s.g.testClock else 0
  | .testClockHi => if s.g.testMode then hiWord s.g.testClock else 0
  | .testSeed j => if s.g.testMode then laneWord s.g.testSeed j else 0

/-- The value of a register of a port (R87); CMD reads 0 (R88). -/
def readPort (g : Shared) (p : Port) : PortReg → Word
  | .cmd => 0
  | .status => statusWord g p
  | .ilen => p.ilen.setWidth 32
  | .olen => p.olen.setWidth 32
  | .id j => laneWord p.id j
  | .argNsLo => loWord p.argNs
  | .argNsHi => hiWord p.argNs
  | .argVer => p.argVer.setWidth 32
  | .res => resWord p
  | .tsMsLo => p.tsMs.extractLsb' 0 32
  | .tsMsHi => 0#16 ++ p.tsMs.extractLsb' 32 16
  | .tsSubns => p.tsSubns.setWidth 32
  | .ibuf j => laneWord p.ibuf j
  | .obuf j => laneWord p.obuf j

/-- The value of a target; reserved offsets and absent ports read 0 (R82). -/
def readTarget (s : State) : Target → Word
  | .global r => readGlobal s r
  | .port p r =>
    match s.ports[p]? with
    | some q => readPort s.g q r
    | none => 0
  | .reserved => 0

/-- The value of the register at an aligned offset. -/
def State.readReg (s : State) (off : Nat) : Word := readTarget s (targetOf off)

/-! ### Writes (R82, R88, R91 to R93) -/

/-- The shared state after a write to a block-wide register: only the test registers take one, and in test mode only
(R86, 10_state.md R38). -/
def writeGlobal (g : Shared) (v : Word) : GlobalReg → Shared
  | .gstatus => g
  | .lastLo => g
  | .lastHi => g
  | .testClockLo => if g.testMode then { g with testClock := setLoWord g.testClock v } else g
  | .testClockHi => if g.testMode then { g with testClock := setHiWord g.testClock v } else g
  | .testSeed j => if g.testMode then { g with testSeed := setLaneWord g.testSeed j v } else g

/-- Where an accepted opcode puts SEQ: STRICT_ACQ for GEN_V7_STRICT (R92). -/
def acceptedSeq (op : Byte) : Seq := if op = 0x04 then .strictAcq else .busy op

/-- The port after an accepted CMD write (R92). -/
def Port.accept (p : Port) (op : Byte) : Port :=
  { p with done := false, err := 0, ovr := false, seq := acceptedSeq op }

/-- A write of `v` to CMD: accepted when PHASE = READY and the port is IDLE, else dropped with OVR (R92). -/
def Port.writeCmd (p : Port) (phase : Phase) (v : Word) : Port :=
  if phase = .ready ∧ p.seq = .idle then p.accept (v.extractLsb' 0 8) else { p with ovr := true }

/-- The port with an operand register written; only ILEN, ID, ARG_NS, ARG_VER and IBUF take a write (R87, R88).
DEDUCED, the model's choice (log 20): a host's write to ID is stored unchecked, well-formed or not (R41, R91, R93), though
44_parse.md R291 calls FROM_BYTES and UNSHIFT the only ways for ID to hold a value that is not well-formed. -/
def Port.writeOperand (p : Port) (v : Word) : PortReg → Port
  | .cmd => p
  | .status => p
  | .ilen => { p with ilen := v.setWidth 8 }
  | .olen => p
  | .id j => { p with id := setLaneWord p.id j v }
  | .argNsLo => { p with argNs := setLoWord p.argNs v }
  | .argNsHi => { p with argNs := setHiWord p.argNs v }
  | .argVer => { p with argVer := v.setWidth 4 }
  | .res => p
  | .tsMsLo => p
  | .tsMsHi => p
  | .tsSubns => p
  | .ibuf j => { p with ibuf := setLaneWord p.ibuf j v }
  | .obuf _ => p

/-- The port after a write of `v` to one of its registers; operand writes to a busy port are dropped (R93). -/
def Port.write (p : Port) (phase : Phase) (v : Word) (r : PortReg) : Port :=
  if r = .cmd then p.writeCmd phase v else if p.seq = .idle then p.writeOperand v r else p

/-- The machine after a write of `v` to a target; reserved offsets and absent ports ignore it (R82). -/
def writeTarget (s : State) (v : Word) : Target → State
  | .global r => s.setShared (writeGlobal s.g v r)
  | .port p r => { s with ports := s.ports.modify p fun q => q.write s.g.phase v r }
  | .reserved => s

/-- The machine after a write of `v` to the register at an aligned offset. -/
def State.writeReg (s : State) (off : Nat) (v : Word) : State := writeTarget s v (targetOf off)

/-! ### Bus accesses (R80, R81) -/

/-- The offset of an absolute address in the register space, if it lies there (R80). -/
def State.offsetOf (s : State) (addr : Nat) : Option Nat :=
  if s.base ≤ addr ∧ addr < s.base + 4096 then some (addr - s.base) else none

/-- An access is 32 bits wide and aligned (R81). -/
def accessOk (off bytes : Nat) : Bool := bytes == 4 && off % 4 == 0

/-- The machine with the answer to a bus access (log 8). -/
def State.respond (s : State) (r : BusResponse) : State := s.setEnv { s.env with resp := r }

/-- A bus read: its data, or the bus error; the block does not change (R81, R90). -/
def State.busRead (s : State) (addr bytes : Nat) : Host.Outcome State Fault Refusal :=
  match s.offsetOf addr with
  | none => .fault (.outsideRegisterSpace addr)
  | some off => .next (s.respond (if accessOk off bytes then .data (s.readReg off) else .error))

/-- A bus write, or the bus error with no change (R81, R91). -/
def State.busWrite (s : State) (addr bytes : Nat) (v : Word) : Host.Outcome State Fault Refusal :=
  match s.offsetOf addr with
  | none => .fault (.outsideRegisterSpace addr)
  | some off => .next (if accessOk off bytes then (s.writeReg off v).respond .done else s.respond .error)

/-- Reset with the strap `strap`: every piece of state but G.SEED takes its reset value (70_reset_and_hazards.md R390;
log 10). -/
def State.assertReset (s : State) (strap : Bool) : State :=
  { s with g := Shared.reset strap s.g.seed, ports := List.replicate s.nPorts Port.reset }

end Sys2Proof.Machine
end

