-- ==== Sys2Proof/Machine/Control.lean ====
section
/-! DEFINITION. The control commands NOP and TEST_RESEED, and the seeding step (40_service.md). -/

namespace Sys2Proof.Machine

/-- NOP: `complete(p, 0)` (R171). -/
def execNop (s : State) : Host.Outcome State Fault Refusal := .next (s.completeWith s.port)

/-- TEST_RESEED: in test mode SEED <- TEST_SEED and RNG_POS <- 0; in production IllegalCommand (R172). -/
def execTestReseed (s : State) : Host.Outcome State Fault Refusal :=
  .next (if s.g.testMode then (s.setShared (s.g.loadSeed s.g.testSeed)).completeWith s.port else s.illegalCommand)

/-- SEED <- `seed`, RNG_POS <- 0, PHASE <- READY (R173). -/
def State.seedWith (s : State) (seed : Seed) : State :=
  s.setShared { s.g.loadSeed seed with phase := .ready }

/-- What the seeding sequencer's step does in PHASE = SEEDING (R173, R174). -/
def State.seedNow (s : State) : State :=
  if s.g.testMode then s.seedWith s.g.testSeed
  else
    match s.entropyValue with
    | none => s.afterEntropy.raiseFatal .entropyInitFailure
    | some e => s.afterEntropy.seedWith e

/-- The seeding sequencer's step: it has one only while PHASE = SEEDING (R173, 70_reset_and_hazards.md R392). -/
def State.seedingStep (s : State) : State :=
  match s.g.phase with
  | .seeding => s.seedNow
  | .ready => s
  | .fatal => s

end Sys2Proof.Machine
end

