-- ==== Sys2Proof/Machine/Fields.lean ====
section
/-! DEFINITION. The accessors GET_VERSION, GET_VARIANT and GET_TIME (41_fields.md). -/

namespace Sys2Proof.Machine

/-- GET_VERSION: RES_VER <- the version nibble (R191). -/
def execGetVersion (s : State) : Host.Outcome State Fault Refusal :=
  .next (s.completeWith { s.port with resVer := versionOf s.port.id })

/-- GET_VARIANT: RES_VAR <- the two variant bits (R192). -/
def execGetVariant (s : State) : Host.Outcome State Fault Refusal :=
  .next (s.completeWith { s.port with resVar := variantOf s.port.id })

/-- The sub-millisecond offset of a slot, rounded down (R193). -/
def slotNanoseconds (slot : Nat) : Nat := slot * 1000000 / 4096

/-- The reconstructed time T of a millisecond count and a slot (R194). -/
def reconstructTime (ms slot : Nat) : Nat := ms * 1000000 + slotNanoseconds slot

/-- The result fields of GET_TIME: the time of a version-7 value, else all zero (R193). -/
def Port.setTime (p : Port) : Port :=
  if versionOf p.id = 7 then
    { p with
      tsMs := msOf p.id
      tsSubns := BitVec.ofNat 20 (slotNanoseconds (slotOf p.id).toNat)
      tsValid := true }
  else { p with tsMs := 0, tsSubns := 0, tsValid := false }

/-- GET_TIME (R193). -/
def execGetTime (s : State) : Host.Outcome State Fault Refusal := .next (s.completeWith s.port.setTime)

end Sys2Proof.Machine
end

