-- ==== Sys2Proof/Machine/Repack.lean ====
section
/-! DEFINITION. The bit-repack transform: pack, shift_k, unshift_k and their six commands (43_repack.md, with
90_conflicts.md C1). -/

namespace Sys2Proof.Machine

/-- The 15-byte content of `pack(b)` (R240). -/
def packContent (b : Ident) : Vector Byte 15 :=
  #v[b[0], b[1], b[2], b[3], b[4], b[5], loNibble b[6] ++ hiNibble b[7], loNibble b[7] ++ loNibble b[8],
    b[9], b[10], b[11], b[12], b[13], b[14], b[15]]

/-- The output q of `shift_k(b)`; its version is `versionOf b` (R244). -/
def shiftBytes (k : Nat) (b : Ident) : Ident := (packContent b).push ((variantNibbleOf b ++ 0#4) >>> k)

/-- `unshift_k(q, v)` (R248). -/
def unshiftBytes (k : Nat) (q : Ident) (v : BitVec 4) : Ident :=
  let t := q[15] <<< k
  #v[q[0], q[1], q[2], q[3], q[4], q[5], v ++ hiNibble q[6], loNibble q[6] ++ hiNibble q[7],
    hiNibble t ++ loNibble q[7], q[8], q[9], q[10], q[11], q[12], q[13], q[14]]

/-- What the shift commands do, for their k: OBUF, OLEN and RES_VER (43_repack.md §2). -/
def State.shiftStep (s : State) (k : Nat) : State :=
  s.completeWith { s.port.setOutput (shiftBytes k s.port.id).toList with resVer := versionOf s.port.id }

/-- What the unshift commands do, for their k: ID, without reading ILEN (43_repack.md §3). -/
def State.unshiftStep (s : State) (k : Nat) : State :=
  s.completeWith { s.port with id := unshiftBytes k s.port.input16 s.port.argVer }

/-- SHIFT, k = 0 (R241). -/
def execShift (s : State) : Host.Outcome State Fault Refusal := .next (s.shiftStep 0)

/-- SHIFT_B32, k = 1 (R242). -/
def execShiftB32 (s : State) : Host.Outcome State Fault Refusal := .next (s.shiftStep 1)

/-- SHIFT_B64, k = 2 (R243). -/
def execShiftB64 (s : State) : Host.Outcome State Fault Refusal := .next (s.shiftStep 2)

/-- UNSHIFT, k = 0 (R245). -/
def execUnshift (s : State) : Host.Outcome State Fault Refusal := .next (s.unshiftStep 0)

/-- UNSHIFT_B32, k = 1 (R246). -/
def execUnshiftB32 (s : State) : Host.Outcome State Fault Refusal := .next (s.unshiftStep 1)

/-- UNSHIFT_B64, k = 2 (R247). -/
def execUnshiftB64 (s : State) : Host.Outcome State Fault Refusal := .next (s.unshiftStep 2)

end Sys2Proof.Machine
end

