-- ==== Sys2Proof/Machine/Format.lean ====
section
/-! DEFINITION. The format commands (45_format.md): total on every 16-byte value. -/

namespace Sys2Proof.Machine

/-- The two hex digits of a byte (30_encoding.md R121, R122). -/
def hexOfByte (y : Byte) : List Byte :=
  [symbol hexDigits (hiNibble y).toNat, symbol hexDigits (loNibble y).toNat]

/-- The 32 hex digits of an identifier. -/
def hexOfIdent (b : Ident) : List Byte := b.toList.flatMap hexOfByte

/-- The dash byte `-` = 0x2D. -/
def dash : List Byte := [0x2D]

/-- The canonical form, groups 8-4-4-4-12 (30_encoding.md R121). -/
def canonicalText (b : Ident) : List Byte :=
  let h := hexOfIdent b
  slice h 0 8 ++ dash ++ slice h 8 4 ++ dash ++ slice h 12 4 ++ dash ++ slice h 16 4 ++ dash ++ slice h 20 12

/-- The version character `'A' + v` (30_encoding.md R123). -/
def versionChar (v : BitVec 4) : Byte := 0x41 + v.setWidth 8

/-- The digits of 16 bytes in groups of `bits` bits, `len` of them, zero bits appended to fill the last (R322, R323). -/
def groupDigits (bits len : Nat) (q : Ident) : List Nat :=
  digitsBE (2 ^ bits) len (numberOfIdent q * 2 ^ (bits * len - 128))

/-- The compact base-32 form (R322). -/
def compact32Text (b : Ident) : List Byte :=
  versionChar (versionOf b) :: ((groupDigits 5 26 (shiftBytes 1 b)).map (symbol alpha32)).take 25

/-- The compact base-64 form (R323). -/
def compact64Text (b : Ident) : List Byte :=
  versionChar (versionOf b) :: ((groupDigits 6 22 (shiftBytes 2 b)).map (symbol alpha64)).take 21

/-- The base-57 short form (R324, 30_encoding.md R129). -/
def shortText (b : Ident) : List Byte := (digitsBE 57 22 (numberOfIdent b)).map (symbol alpha57)

/-- The JSON form: the canonical form between quotes (R326). -/
def jsonText (b : Ident) : List Byte := quoteByte :: canonicalText b ++ [quoteByte]

/-- What a format command does with its output form (R320). -/
def State.formatStep (s : State) (f : List Byte) : State := s.completeWith (s.port.setOutput f)

/-- FMT_CANONICAL (R321). -/
def execFmtCanonical (s : State) : Host.Outcome State Fault Refusal := .next (s.formatStep (canonicalText s.port.id))

/-- FMT_C32 (R322). -/
def execFmtC32 (s : State) : Host.Outcome State Fault Refusal := .next (s.formatStep (compact32Text s.port.id))

/-- FMT_C64 (R323). -/
def execFmtC64 (s : State) : Host.Outcome State Fault Refusal := .next (s.formatStep (compact64Text s.port.id))

/-- FMT_SHORT (R324). -/
def execFmtShort (s : State) : Host.Outcome State Fault Refusal := .next (s.formatStep (shortText s.port.id))

/-- FMT_RAW (R325). -/
def execFmtRaw (s : State) : Host.Outcome State Fault Refusal := .next (s.formatStep s.port.id.toList)

/-- FMT_JSON (R326). -/
def execFmtJson (s : State) : Host.Outcome State Fault Refusal := .next (s.formatStep (jsonText s.port.id))

end Sys2Proof.Machine
end

