-- ==== Sys2Proof/Machine/Generate.lean ====
section
/-! DEFINITION. The generators GEN_V4, GEN_V7, GEN_V7_AT and GEN_V7_STRICT (42_generate.md). -/

namespace Sys2Proof.Machine

/-- The millisecond part of `split(ns)` (R210). -/
def splitMs (ns : Nat) : Nat := ns / 1000000

/-- The slot part of `split(ns)` (R210). -/
def splitSlot (ns : Nat) : Nat := ns % 1000000 * 4096 / 1000000

/-- The v4 identifier of 16 random bytes: version 0100, variant 10 (R213). -/
def v4Ident (r : Vector Byte 16) : Ident :=
  (r.set 6 ((r[6] &&& 0x0F#8) ||| 0x40#8)).set 8 ((r[8] &&& 0x3F#8) ||| 0x80#8)

/-- The v7 identifier of a millisecond count, a slot and 8 random bytes (R214, 30_encoding.md R117). -/
def v7Ident (ms : BitVec 48) (slot : BitVec 12) (r : Vector Byte 8) : Ident :=
  #v[ms.extractLsb' 40 8, ms.extractLsb' 32 8, ms.extractLsb' 24 8, ms.extractLsb' 16 8, ms.extractLsb' 8 8,
    ms.extractLsb' 0 8, 0x7#4 ++ slot.extractLsb' 8 4, slot.extractLsb' 0 8, (r[0] &&& 0x3F#8) ||| 0x80#8,
    r[1], r[2], r[3], r[4], r[5], r[6], r[7]]

/-- The v7 identifier of a tick and 8 random bytes (R214). -/
def v7OfTick (ns : BitVec 64) (r : Vector Byte 8) : Ident :=
  v7Ident (BitVec.ofNat 48 (splitMs ns.toNat)) (BitVec.ofNat 12 (splitSlot ns.toNat)) r

/-- `(m1, s1) > (m2, s2)` (R219). -/
def laterPair (m1 : BitVec 48) (s1 : BitVec 12) (m2 : BitVec 48) (s2 : BitVec 12) : Bool :=
  m2.toNat < m1.toNat || (m1 == m2 && s2.toNat < s1.toNat)

/-- Fill(8), ID <- the v7 identifier of the tick, complete (R214, R218). -/
def State.completeV7 (s : State) (ns : BitVec 64) : State :=
  (s.afterFill 8).completeWith { s.port with id := v7OfTick ns (s.fillBytes 8) }

/-- The body of GEN_V7 and GEN_V7_AT once the tick is known: the sign test comes first (R214, 60_exceptions.md R361). -/
def State.generateV7 (s : State) (ns : BitVec 64) : State :=
  if ns.slt 0 then s.raiseFatal .preEpochTime else s.completeV7 ns

/-- GEN_V4 (R213). -/
def execGenV4 (s : State) : Host.Outcome State Fault Refusal :=
  .next ((s.afterFill 16).completeWith { s.port with id := v4Ident (s.fillBytes 16) })

/-- GEN_V7: the tick is `Now()` (R214). -/
def execGenV7 (s : State) : Host.Outcome State Fault Refusal := .next (s.afterNow.generateV7 s.nowValue)

/-- GEN_V7_AT: the tick is ARG_NS, signed; no clock sample (R215, 30_encoding.md R119). -/
def execGenV7At (s : State) : Host.Outcome State Fault Refusal := .next (s.generateV7 s.port.argNs)

/-- The strict acquire step: it exists only while LOCK = none (R217). -/
def State.strictAcquire (s : State) : State :=
  match s.g.lock with
  | none => (s.setShared { s.g with lock := some s.env.cur }).setPort { s.port with seq := .strictSpin }
  | some _ => s

/-- Recording a pair as last-issued and releasing the lock (R218). -/
def Shared.recordPair (g : Shared) (ms : BitVec 48) (slot : BitVec 12) : Shared :=
  { g with lastMs := ms, lastSlot := slot, lock := none }

/-- The strict spin step on the sample `ns` (R218): Fatal if it is negative; completion if its pair exceeds the
last-issued pair; otherwise no change. -/
def State.strictSpinOn (s : State) (ns : BitVec 64) : State :=
  let ms := BitVec.ofNat 48 (splitMs ns.toNat)
  let slot := BitVec.ofNat 12 (splitSlot ns.toNat)
  if ns.slt 0 then s.raiseFatal .preEpochTime
  else if laterPair ms slot s.g.lastMs s.g.lastSlot then (s.setShared (s.g.recordPair ms slot)).completeV7 ns
  else s

/-- One step of GEN_V7_STRICT by where its sequencer stands (R216 to R218; log 15). -/
def execGenV7Strict (s : State) : Host.Outcome State Fault Refusal :=
  .next
    (match s.port.seq with
    | .strictAcq => s.strictAcquire
    | .strictSpin => s.afterNow.strictSpinOn s.nowValue
    | .idle => s
    | .busy _ => s)

end Sys2Proof.Machine
end

