-- ==== Sys2Proof/Machine/Parse.lean ====
section
/-! DEFINITION. The format dispatch parser PARSE, the short decoder PARSE_SHORT and FROM_BYTES (44_parse.md). -/

namespace Sys2Proof.Machine

/-- A decoded value after `validate` (R274, R297). -/
def validated (b : Ident) : Except ParseError Ident :=
  match validate b with
  | none => .ok b
  | some e => .error e

/-- The raw 16-byte form (R274). -/
def parseRaw (s : List Byte) : Except ParseError Ident := validated (bytesPadded 16 s)

/-- All four dashes stand at 8, 13, 18 and 23 (R275). -/
def dashesInPlace (s : List Byte) : Bool :=
  charAt s 8 == 0x2D && charAt s 13 == 0x2D && charAt s 18 == 0x2D && charAt s 23 == 0x2D

/-- The 32 characters of a canonical string that are no dashes (R276). -/
def canonicalHex (s : List Byte) : List Byte :=
  slice s 0 8 ++ slice s 9 4 ++ slice s 14 4 ++ slice s 19 4 ++ slice s 24 12

/-- The variant character is one of 8, 9, A, a, B, b (R278). -/
def variantCharOk (c : Byte) : Bool := (text "89AaBb").contains c

/-- The canonical form (R275 to R280). -/
def parseCanonical (s : List Byte) : Except ParseError Ident :=
  if ¬ dashesInPlace s then .error .malformedSeparator
  else
    let c := charAt s 14
    if c = ascii '0' then
      if s = nilCanon then .ok Ident.nil else .error .unsupportedVersion
    else if c = ascii 'f' ∨ c = ascii 'F' then
      if eqCi s maxCanon then .ok Ident.max else .error .unsupportedVersion
    else if c = ascii '4' ∨ c = ascii '7' then
      if ¬ variantCharOk (charAt s 19) then .error .invalidVariant
      else
        match digitValues hexValue (canonicalHex s) with
        | none => .error .invalidDigit
        | some ds => .ok (identOfNumber (numberBE 16 ds))
    else .error .unsupportedVersion

/-- The two bases of the compact forms. -/
inductive CompactBase where
  /-- base-32, 26 characters. -/
  | b32
  /-- base-64url, 22 characters. -/
  | b64
  deriving DecidableEq, Repr

/-- The bits of one digit (R281). -/
def CompactBase.bits : CompactBase → Nat
  | .b32 => 5
  | .b64 => 6

/-- The value of a digit (R284, R285). -/
def CompactBase.value : CompactBase → Byte → Option Nat
  | .b32 => base32Value
  | .b64 => base64Value

/-- `lead(c)`: the version of a compact form's leading character, in either case (R282). -/
def leadVersion (c : Byte) : Option (BitVec 4) :=
  if upper c = ascii 'A' then some 0
  else if upper c = ascii 'E' then some 4
  else if upper c = ascii 'H' then some 7
  else if upper c = ascii 'P' then some 15
  else none

/-- `literal_match(s, B, 0)` (R283). -/
def matchesNilCompact (B : CompactBase) (s : List Byte) : Bool :=
  match B with
  | .b32 => eqCi s nilC32
  | .b64 => s.drop 1 == nilC64.drop 1

/-- `literal_match(s, B, 15)` (R283). -/
def matchesMaxCompact (B : CompactBase) (s : List Byte) : Bool :=
  match B with
  | .b32 => eqCi s maxC32
  | .b64 => s.drop 1 == maxC64.drop 1

/-- The payload of compact digits: the 120 content bits, then a byte with vn in its high nibble (R281, R287). -/
def compactPayload (B : CompactBase) (ds : List Nat) : Ident :=
  bytesPadded 16
    (bytesOfNumber 15 (numberBE (2 ^ B.bits) ds.dropLast) ++ [BitVec.ofNat 4 (ds.getLastD 0) ++ 0#4])

/-- A version 4 or 7 compact form once its digits are known (R281, R286, R287). `tailStrict` is COMPACT_TAIL_STRICT
(00_scope.md R13; log 14). -/
def parseCompactDigits (B : CompactBase) (tailStrict : Bool) (v : BitVec 4) (ds : List Nat) :
    Except ParseError Ident :=
  let b := unshiftBytes 0 (compactPayload B ds) v
  if tailStrict && 16 ≤ ds.getLastD 0 then .error .invalidDigit
  else if variantOf b ≠ 2 then .error .invalidVariant
  else .ok b

/-- The compact forms (R281 to R287). -/
def parseCompact (B : CompactBase) (s : List Byte) : Except ParseError Ident :=
  match leadVersion (charAt s 0) with
  | none => .error .unsupportedVersion
  | some v =>
    if v = 0 then
      if matchesNilCompact B s then .ok Ident.nil else .error .unsupportedVersion
    else if v = 15 then
      if matchesMaxCompact B s then .ok Ident.max else .error .unsupportedVersion
    else
      match digitValues B.value (s.drop 1) with
      | none => .error .invalidDigit
      | some ds => parseCompactDigits B Config.compactTailStrict v ds

/-- The length dispatch on the stripped string (R271, R273). -/
def parseStripped (s : List Byte) : Except ParseError Ident :=
  if s.length = 16 then parseRaw s
  else if s.length = 36 then parseCanonical s
  else if s.length = 26 then parseCompact .b32 s
  else if s.length = 22 then parseCompact .b64 s
  else .error .malformedLength

/-- PARSE on the input string (R271). -/
def parseText (s : List Byte) : Except ParseError Ident := parseStripped (stripQuotes Config.quoteStrip s)

/-- The base-57 decode of a trimmed string (R292 to R297). -/
def parseShortTrimmed (t : List Byte) : Except ParseError Ident :=
  if t.length ≠ 22 then .error .malformedLength
  else if t = nilS57 then .ok Ident.nil
  else if t = maxS57 then .ok Ident.max
  else
    match digitValues base57Value t with
    | none => .error .invalidDigit
    | some ds =>
      if 2 ^ 128 ≤ numberBE 57 ds then .error .invalidDigit
      else validated (identOfNumber (numberBE 57 ds))

/-- PARSE_SHORT on the input string (R292). -/
def parseShortText (s : List Byte) : Except ParseError Ident := parseShortTrimmed (trim s)

/-- A parser run on the port's input, ILEN > IBUF_SIZE first (R271, R288, R292). -/
def Port.parseInput (p : Port) (parser : List Byte → Except ParseError Ident) : Except ParseError Ident :=
  if p.inputTooLong then .error .malformedLength else parser p.input

/-- PARSE (R271). -/
def execParse (s : State) : Host.Outcome State Fault Refusal := .next (s.finishParse (s.port.parseInput parseText))

/-- PARSE_SHORT (R292). -/
def execParseShort (s : State) : Host.Outcome State Fault Refusal :=
  .next (s.finishParse (s.port.parseInput parseShortText))

/-- FROM_BYTES: any 16 bytes when ILEN = 16 (R291). -/
def execFromBytes (s : State) : Host.Outcome State Fault Refusal :=
  .next (s.finishParse (if s.port.ilen = 16 then .ok s.port.input16 else .error .malformedLength))

end Sys2Proof.Machine
end

