-- ==== Sys2Proof/Machine/Dispatch.lean ====
section
/-! DEFINITION. The dispatch of a command to its meaning, one arm a constructor. -/

namespace Sys2Proof.Machine

/-- One step of the current port on its command in progress (10_state.md R40). -/
def exec (i : Instr) (s : State) : Host.Outcome State Fault Refusal :=
  match i with
  | .nop => Sys2Proof.Machine.execNop s
  | .genV4 => Sys2Proof.Machine.execGenV4 s
  | .genV7 => Sys2Proof.Machine.execGenV7 s
  | .genV7At => Sys2Proof.Machine.execGenV7At s
  | .genV7Strict => Sys2Proof.Machine.execGenV7Strict s
  | .getVersion => Sys2Proof.Machine.execGetVersion s
  | .getVariant => Sys2Proof.Machine.execGetVariant s
  | .getTime => Sys2Proof.Machine.execGetTime s
  | .shift => Sys2Proof.Machine.execShift s
  | .shiftB32 => Sys2Proof.Machine.execShiftB32 s
  | .shiftB64 => Sys2Proof.Machine.execShiftB64 s
  | .unshift => Sys2Proof.Machine.execUnshift s
  | .unshiftB32 => Sys2Proof.Machine.execUnshiftB32 s
  | .unshiftB64 => Sys2Proof.Machine.execUnshiftB64 s
  | .parse => Sys2Proof.Machine.execParse s
  | .parseShort => Sys2Proof.Machine.execParseShort s
  | .fromBytes => Sys2Proof.Machine.execFromBytes s
  | .fmtCanonical => Sys2Proof.Machine.execFmtCanonical s
  | .fmtC32 => Sys2Proof.Machine.execFmtC32 s
  | .fmtC64 => Sys2Proof.Machine.execFmtC64 s
  | .fmtShort => Sys2Proof.Machine.execFmtShort s
  | .fmtRaw => Sys2Proof.Machine.execFmtRaw s
  | .fmtJson => Sys2Proof.Machine.execFmtJson s
  | .testReseed => Sys2Proof.Machine.execTestReseed s

end Sys2Proof.Machine
end

