-- ==== Sys2Proof/Machine/Agents.lean ====
section
/-! DEFINITION. The agents and their interleaving: which step comes next, what a port's step fetches and runs, and how
one event of the interleaving changes the machine (20_memory.md R96, 10_state.md R40). -/

namespace Sys2Proof.Machine

/-- The opcode of the command in progress, the counterpart of a fetch: SEQ holds it (10_state.md R39, 20_memory.md
R100). The strict states are those of opcode 0x04 (20_memory.md R92). -/
def fetchOpcode : Seq → Option Byte
  | .idle => none
  | .busy op => some op
  | .strictAcq => some 0x04
  | .strictSpin => some 0x04

/-- The machine with `p` as the port whose step is taken (log 17). -/
def State.withCurrent (s : State) (p : Nat) : State := s.setEnv { s.env with cur := p }

/-- The current port's step on the opcode it fetched: its command's meaning, or IllegalCommand (30_encoding.md R113). -/
def State.runOpcode (s : State) (op : Byte) : Host.Outcome State Fault Refusal :=
  match decodeOpcode op with
  | .ok i => exec i s
  | .error _ => .next s.illegalCommand

/-- Port `p` has a step to take: it exists, PHASE = READY and a command is in progress (40_service.md R170,
60_exceptions.md R360). -/
def State.portEnabled (s : State) (p : Nat) : Bool :=
  s.g.phase == .ready && (s.ports.getD p Port.reset).seq != .idle && p < s.nPorts

/-- The step of port `p`; a port with no step enabled leaves the machine as it is (log 3). -/
def State.portStep (s : State) (p : Nat) : Host.Outcome State Fault Refusal :=
  if s.portEnabled p then
    match fetchOpcode (s.withCurrent p).port.seq with
    | none => .next s
    | some op => (s.withCurrent p).runOpcode op
  else .next s

/-- An agent of the block has this step enabled: port `p` its perform, acquire or spin step, where the acquire step needs
a free lock (42_generate.md R217), or the seeding sequencer its step (40_service.md R173). The host's bus accesses and
reset are no steps of an agent of the block. -/
def State.stepEnabled (s : State) : Event → Bool
  | .portStep p => s.portEnabled p && ((s.ports.getD p Port.reset).seq != .strictAcq || s.g.lock.isNone)
  | .seedStep => s.g.phase == .seeding
  | .read _ _ => false
  | .write _ _ _ => false
  | .reset _ => false

/-- The step of a port in this state of its sequencer calls `Now()`: the perform step of GEN_V7 and the strict spin step
(42_generate.md R214, R218). -/
def callsNow : Seq → Bool
  | .idle => false
  | .busy op => op == 0x02
  | .strictAcq => false
  | .strictSpin => true

/-- The value that `Now()` returns in the step `e` taken in this state, if that step calls it (40_service.md R177, R178). -/
def State.nowInStep (s : State) : Event → Option (BitVec 64)
  | .portStep p => if s.portEnabled p && callsNow (s.ports.getD p Port.reset).seq then some s.nowValue else none
  | .seedStep => none
  | .read _ _ => none
  | .write _ _ _ => none
  | .reset _ => none

/-- One event of the interleaving (20_memory.md R96). -/
def State.takeEvent (s : State) : Event → Host.Outcome State Fault Refusal
  | .read addr bytes => s.busRead addr bytes
  | .write addr bytes v => s.busWrite addr bytes v
  | .portStep p => s.portStep p
  | .seedStep => .next s.seedingStep
  | .reset strap => .next (s.assertReset strap)

/-- The next event: the first one already chosen, or else the free schedule's (log 2). -/
def State.nextEvent (s : State) : Event := nextInput Config.schedule s.env.events s.env.eventNo

/-- The machine once its next event is taken off (log 2). -/
def State.afterEvent (s : State) : State :=
  s.setEnv { s.env with events := s.env.events.tail, eventNo := s.env.eventNo + 1 }

/-- The machine with an opcode accepted by port 0 and port 0's step chosen as the next one: what it takes for the very
next step to run that command (log 1). -/
def State.placeCommand (s : State) (op : Byte) : State :=
  { s with
    g := { s.g with phase := .ready }
    ports := s.ports.modify 0 fun p => p.accept op
    env := { s.env with events := .portStep 0 :: s.env.events } }

end Sys2Proof.Machine
end

