-- ==== Sys2Proof/Machine/Step.lean ====
section
/-! DEFINITION. One step of the machine: the next event of the interleaving is taken. -/

namespace Sys2Proof.Machine

/-- One step (20_memory.md R96): next, fault or refusal. -/
def step (s : State) : Host.Outcome State Fault Refusal := s.afterEvent.takeEvent s.nextEvent

/-- The machine with the command of these bits placed where the next step runs it (log 1). -/
def State.withFetchWord (s : State) (nbits w : Nat) : State := s.placeCommand (opcodeField (tableWord nbits w))

end Sys2Proof.Machine
end

