-- ==== Sys2Proof/Machine/HostProgram.lean ====
section
/-! DEFINITION. The host's assembler syntax as the bus events it stands for (30_encoding.md R133, R134). WAIT's loop is
the host's own: only its test and its reads are given (R135; log 19). -/

namespace Sys2Proof.Machine

/-- The offset of a block-wide register (20_memory.md R86). -/
def globalRegOffset : GlobalReg → Nat
  | .gstatus => 0x000
  | .lastLo => 0x008
  | .lastHi => 0x00C
  | .testClockLo => 0x010
  | .testClockHi => 0x014
  | .testSeed j => 0x020 + 4 * j

/-- The offset of a register in its port's window (20_memory.md R87). -/
def portRegOffset : PortReg → Nat
  | .cmd => 0x00
  | .status => 0x04
  | .ilen => 0x08
  | .olen => 0x0C
  | .id j => 0x10 + 4 * j
  | .argNsLo => 0x20
  | .argNsHi => 0x24
  | .argVer => 0x28
  | .res => 0x2C
  | .tsMsLo => 0x30
  | .tsMsHi => 0x34
  | .tsSubns => 0x38
  | .ibuf j => 0x40 + 4 * j
  | .obuf j => 0x80 + 4 * j

/-- The block-wide registers that exist: TEST_SEEDj for j = 0 to 7 (R86). -/
def GlobalReg.exists : GlobalReg → Bool
  | .testSeed j => j < 8
  | .gstatus => true
  | .lastLo => true
  | .lastHi => true
  | .testClockLo => true
  | .testClockHi => true

/-- The window registers that exist: IDj for j = 0 to 3, IBUFj and OBUFj for j = 0 to 15 (R87). -/
def PortReg.exists : PortReg → Bool
  | .id j => j < 4
  | .ibuf j => j < 16
  | .obuf j => j < 16
  | .cmd => true
  | .status => true
  | .ilen => true
  | .olen => true
  | .argNsLo => true
  | .argNsHi => true
  | .argVer => true
  | .res => true
  | .tsMsLo => true
  | .tsMsHi => true
  | .tsSubns => true

/-- `WR p.REG, imm32` (R133). -/
def asmWr (base p : Nat) (r : PortReg) (v : Word) : Event := .write (base + windowOffset p + portRegOffset r) 4 v

/-- `WRG REG, imm32` (R133). -/
def asmWrg (base : Nat) (r : GlobalReg) (v : Word) : Event := .write (base + globalRegOffset r) 4 v

/-- `RD p.REG` (R133). -/
def asmRd (base p : Nat) (r : PortReg) : Event := .read (base + windowOffset p + portRegOffset r) 4

/-- `RDG REG` (R133). -/
def asmRdg (base : Nat) (r : GlobalReg) : Event := .read (base + globalRegOffset r) 4

/-- `CMD p, MNEMONIC` (R133). -/
def asmCmd (base p : Nat) (i : Instr) : Event := asmWr base p .cmd (encode i)

/-- WAIT's test: it loops while BUSY = 1 and FATAL = 0 (R134, 90_conflicts.md C16). -/
def waitContinues (status : Word) : Bool := status.getLsbD 0 && !status.getLsbD 9

/-- The reads of a `WAIT p` that polls `n` times before its test ends it (R134). -/
def asmWait (base p n : Nat) : List Event := List.replicate (n + 1) (asmRd base p .status)

/-- Word `j` of a string, 0x00 past its end (R134). -/
def stringWord (s : List Byte) (j : Nat) : Word := laneWord (bytesPadded 64 s) j

/-- `LDSTR p, "text"`, for a text of at most 64 characters (R134). -/
def asmLdstr (base p : Nat) (s : List Byte) : List Event :=
  (List.range ((s.length + 3) / 4)).map (fun j => asmWr base p (.ibuf j) (stringWord s j)) ++
    [asmWr base p .ilen (BitVec.ofNat 32 s.length)]

/-- `LDID p, <uuid>` (R134, R118). -/
def asmLdid (base p : Nat) (b : Ident) : List Event :=
  (List.range 4).map fun j => asmWr base p (.id j) (laneWord b j)

/-- `RDID p` (R134). -/
def asmRdid (base p : Nat) : List Event := (List.range 4).map fun j => asmRd base p (.id j)

/-- `RDOUT p`, once OLEN was read as `olen` (R134). -/
def asmRdout (base p olen : Nat) : List Event :=
  asmRd base p .olen :: (List.range ((olen + 3) / 4)).map fun j => asmRd base p (.obuf j)

/-- `DO p, MNEMONIC` with a WAIT that polls `n` times (R134). -/
def asmDo (base p : Nat) (i : Instr) (n : Nat) : List Event := asmCmd base p i :: asmWait base p n

end Sys2Proof.Machine
end

