-- ==== Sys2Proof/Safety.lean ====
section
/-! DEFINITION. The terms claims use: the invariant of the machine, the order of last-issued pairs, runs without a
reset, and the premises of the spec about the outside world. -/

namespace Sys2Proof

open Sys2Proof.Machine

/-- What the spec says of one port's registers at every moment. -/
structure PortInv (p : Port) : Prop where
  /-- STATUS.ERR holds only 0, 1, 2, 3, 4, 5 or 8 (10_state.md R48). -/
  errLegal : p.err ∈ [0, 1, 2, 3, 4, 5, 8]
  /-- DONE is 1 only between a completion and the next acceptance (R48). -/
  doneIdle : p.done = true → p.seq = .idle
  /-- ERR is 0 while a command is in progress (R48). -/
  errBusy : p.seq ≠ .idle → p.err = 0
  /-- GEN_V7_STRICT is never in BUSY(op) (20_memory.md R92). -/
  strictSeq : p.seq ≠ .busy 0x04
  /-- No output form is longer than 38 bytes (00_scope.md R8). -/
  olenBound : p.olen.toNat ≤ 38
  /-- OBUF is 0 from index OLEN up (10_state.md R43). -/
  obufTail : ∀ i : Nat, p.olen.toNat ≤ i → byteAt p.obuf i = 0
  /-- TS_SUBNS is at most 999755 (10_state.md R47). -/
  subnsBound : p.tsSubns.toNat ≤ 999755
  /-- The time fields are 0 when TS_VALID is 0 (41_fields.md R193). -/
  tsInvalid : p.tsValid = false → p.tsMs = 0 ∧ p.tsSubns = 0

/-- What the spec says of the whole machine at every moment. -/
structure Inv (s : State) : Prop where
  /-- 1 <= N_PORTS <= 15 (00_scope.md R7). -/
  portCount : 1 ≤ s.nPorts ∧ s.nPorts ≤ 15
  /-- BASE is a multiple of 4096 (20_memory.md R80). -/
  baseAligned : 4096 ∣ s.base
  /-- FATAL_CAUSE is 6 or 7 in PHASE = FATAL and 0 otherwise (10_state.md R33). -/
  cause : if s.g.phase = .fatal then s.g.fatalCause = 6 ∨ s.g.fatalCause = 7 else s.g.fatalCause = 0
  /-- Port p is in STRICT_SPIN exactly when it holds LOCK (10_state.md R37, 20_memory.md R98). -/
  lockSpin : ∀ p : Nat, (∃ q, s.ports[p]? = some q ∧ q.seq = .strictSpin) ↔ s.g.lock = some p
  /-- No command is in progress before the seeding step (10_state.md R32). -/
  seedingIdle : s.g.phase = .seeding → ∀ q ∈ s.ports, q.seq = .idle
  /-- Every port's own invariant. -/
  eachPort : ∀ q ∈ s.ports, PortInv q

/-- The last-issued pair as the 60-bit number ms ‖ slot (42_generate.md R219). -/
def lastPair (s : State) : Nat := s.g.lastMs.toNat * 4096 + s.g.lastSlot.toNat

/-- The first 8 bytes of an identifier as an unsigned big-endian number (42_generate.md R219). -/
def first8 (b : Ident) : Nat := numberBE 256 (byteValues (b.toList.take 8))

/-- An event is an assertion of reset. -/
def isReset : Event → Bool
  | .reset _ => true
  | .read _ _ => false
  | .write _ _ _ => false
  | .portStep _ => false
  | .seedStep => false

/-- `RunsWithoutReset n s t`: n steps lead from s to t, and none of them is a reset. -/
def RunsWithoutReset : Nat → State → State → Prop
  | 0, s, t => s = t
  | n + 1, s, t => isReset s.nextEvent = false ∧ ∃ u, step s = .next u ∧ RunsWithoutReset n u t

/-- The state after the current port's command ends with code `err`, shared state `g` and port results `p`
(60_exceptions.md R356), written out. -/
def endedWith (s : State) (g : Shared) (p : Port) (err : BitVec 4) : State :=
  { s with g := g, ports := s.ports.set s.env.cur { p with err := err, done := true, seq := .idle } }

/-- The answer to a bus access is the only thing that changes. -/
def answered (s : State) (r : BusResponse) : State := { s with env := { s.env with resp := r } }

/-- Port `p` is in state `q`, and its window exists in the register space (20_memory.md R87). -/
def PortIs (s : State) (p : Nat) (q : Port) : Prop := s.ports[p]? = some q ∧ p < 15

/-- `b` is the v7 identifier of the tick `ns` with the random bytes `r`, field by field (42_generate.md R210, R214;
30_encoding.md R116). -/
structure IsV7 (b : Ident) (ns : Nat) (r : Vector Byte 8) : Prop where
  ms : (msOf b).toNat = ns / 1000000
  version : versionOf b = 7
  slot : (slotOf b).toNat = ns % 1000000 * 4096 / 1000000
  variant : variantOf b = 2
  randHigh : b[8].extractLsb' 0 6 = r[0].extractLsb' 0 6
  randLow : ∀ i : Nat, i < 7 → byteAt b (9 + i) = byteAt r (1 + i)

/-- `Now()` in state `s` gives the tick `ns` and leaves the record `e` of the outside world: TEST_CLOCK with nothing
drawn in test mode, one draw of CLOCK in production (40_service.md R177, R178). -/
def Sampled (s : State) (ns : BitVec 64) (e : Env) : Prop :=
  (s.g.testMode = true ∧ ns = s.g.testClock ∧ e = s.env) ∨
    (s.g.testMode = false ∧ ns = s.env.clockIn.headD (Config.clock s.env.clockNo) ∧
      e = { s.env with clockIn := s.env.clockIn.tail, clockNo := s.env.clockNo + 1 })

/-- The 120 content bits of an identifier's number U: U without the version nibble (bits 79 to 76) and the variant
nibble (bits 63 to 60), closed up (43_repack.md R240). -/
def contentNumber (u : Nat) : Nat := u / 2 ^ 80 * 2 ^ 72 + u / 2 ^ 64 % 2 ^ 12 * 2 ^ 60 + u % 2 ^ 60

/-- The current port finishes GEN_V7_STRICT in one step of the machine, and `b` is the identifier it writes
(42_generate.md R218, R222). -/
def StrictCompletion (s t : State) (b : Ident) : Prop :=
  ∃ p q q', s.nextEvent = .portStep p ∧ s.g.phase = .ready ∧ s.ports[p]? = some q ∧ q.seq = .strictSpin ∧
    step s = .next t ∧ t.ports[p]? = some q' ∧ q'.seq = .idle ∧ q'.id = b

/-- The host copies OBUF into IBUF and OLEN into ILEN on the current port (44_parse.md R299). -/
def copyOutputToInput (s : State) : State :=
  { s with ports := s.ports.set s.env.cur { s.port with ibuf := s.port.obuf, ilen := s.port.olen } }

/-- The host copies OBUF[0..15] into IBUF[0..15] and RES_VER into ARG_VER on the current port (43_repack.md R249). -/
def copyShiftToUnshift (s : State) : State :=
  { s with
    ports := s.ports.set s.env.cur
      { s.port with
        ibuf := bytesPadded 64 (s.port.obuf.toList.take 16 ++ s.port.ibuf.toList.drop 16)
        argVer := s.port.resVer } }

/-- Events taken one after the other. -/
def takeEvents : List Event → State → Host.Outcome State Fault Refusal
  | [], s => .next s
  | e :: es, s =>
    match s.takeEvent e with
    | .next t => takeEvents es t
    | .fault r => .fault r
    | .refused r => .refused r

/-- The result registers of a port, which only a completing step writes (20_memory.md R94). -/
def resultRegisters (p : Port) :
    Ident × Buffer × BitVec 8 × BitVec 4 × BitVec 2 × Bool × BitVec 48 × BitVec 20 × BitVec 4 × Bool :=
  (p.id, p.obuf, p.olen, p.resVer, p.resVar, p.tsValid, p.tsMs, p.tsSubns, p.err, p.done)

/-- Ticks that never decrease: the premise CLOCK_NONDECREASING on the values that successive calls of `Now()` returned
(40_service.md R179). -/
def ClockNondecreasing (ticks : List (BitVec 64)) : Prop := ticks.Pairwise fun a b => a.toInt ≤ b.toInt

/-- The event `e` leads from `s` to `t`, whatever events the model's own record holds chosen or has counted (log 2). -/
def Takes (s : State) (e : Event) (t : State) : Prop :=
  ∃ (events : List Event) (eventNo : Nat),
    State.takeEvent { s with env := { s.env with events := events, eventNo := eventNo } } e = .next t

/-- An endless execution: `run n` is its n-th state and `ev n` the step taken there (20_memory.md R96). -/
def IsExecution (run : Nat → State) (ev : Nat → Event) : Prop := ∀ n, Takes (run n) (ev n) (run (n + 1))

/-- The values returned by the calls of `Now()` in the first `n` steps of an execution, in step order (40_service.md R179). -/
def nowValues (run : Nat → State) (ev : Nat → Event) (n : Nat) : List (BitVec 64) :=
  (List.range n).filterMap fun m => (run m).nowInStep (ev m)

/-- The premise CLOCK_NONDECREASING of an execution: the values returned by successive calls of `Now()`, in step order,
never decrease (40_service.md R179; log 18). -/
def ExecutionClockNondecreasing (run : Nat → State) (ev : Nat → Event) : Prop :=
  ∀ n, ClockNondecreasing (nowValues run ev n)

/-- The premise PORT_PROGRESS of an execution: every step that stays enabled is eventually taken
(70_reset_and_hazards.md R405; log 18). It promises no order among contenders for the lock. -/
def PortProgress (run : Nat → State) (ev : Nat → Event) : Prop :=
  ∀ (e : Event) (n : Nat), (∀ m, n ≤ m → (run m).stepEnabled e = true) → ∃ m, n ≤ m ∧ ev m = e

/-- From its n-th state on, the execution comes to a reset, to PHASE = FATAL, or to a state with `goal` (R405). -/
def Reaches (run : Nat → State) (ev : Nat → Event) (n : Nat) (goal : State → Prop) : Prop :=
  ∃ m, n ≤ m ∧ (isReset (ev m) = true ∨ (run m).g.phase = .fatal ∨ goal (run m))

/-- Port `p` is in state `seq` of its sequencer. -/
def SeqIs (s : State) (p : Nat) (seq : Seq) : Prop := ∃ q, s.ports[p]? = some q ∧ q.seq = seq

/-- A step of a port completes GEN_V7, and `b` is the identifier it writes (42_generate.md R214, R221). -/
def PlainCompletion (s : State) (e : Event) (t : State) (b : Ident) : Prop :=
  ∃ p q, e = .portStep p ∧ s.g.phase = .ready ∧ SeqIs s p (.busy 0x02) ∧ Takes s e t ∧
    t.ports[p]? = some q ∧ q.seq = .idle ∧ q.id = b

/-- Port `p` has completed its command (60_exceptions.md R356). -/
def Completed (s : State) (p : Nat) : Prop := ∃ q, s.ports[p]? = some q ∧ q.seq = .idle ∧ q.done = true

/-- The sample that `Now()` would give exceeds the last-issued pair (42_generate.md R218, R219). -/
def SampleIsLater (s : State) : Prop :=
  0 ≤ s.nowValue.toInt ∧
    lastPair s < s.nowValue.toNat / 1000000 * 4096 + s.nowValue.toNat % 1000000 * 4096 / 1000000

/-- A safe run never leaves the register space: every event of the given ones addresses the block (20_memory.md R89). -/
def addressesBlock (s : State) : Event → Bool
  | .read addr _ => (s.offsetOf addr).isSome
  | .write addr _ _ => (s.offsetOf addr).isSome
  | .portStep _ => true
  | .seedStep => true
  | .reset _ => true

end Sys2Proof
end

