-- ==== Sys2Proof/Certificates/Slice0/Obligations.lean ====
section
/-! DEFINITION. The statements for the provers. Each docstring names the rule of spec/ it formalises. -/

open Sys2Proof Sys2Proof.Machine

/-- The command word with each of the 24 opcodes of the map in bits [7:0] decodes to the command of that row, and in the SHIFT and UNSHIFT groups opc[1:0] is the tail shift k. (R112) -/
def Obligations.OpcodeMapDecodesEveryRow : Prop :=
  [0x00, 0x01, 0x02, 0x03, 0x04, 0x08, 0x09, 0x0A, 0x10, 0x11, 0x12, 0x14, 0x15, 0x16, 0x20, 0x21, 0x22, 0x30, 0x31, 0x32,
      0x33, 0x34, 0x35, 0x7F].map decodeWord =
    [.ok .nop, .ok .genV4, .ok .genV7, .ok .genV7At, .ok .genV7Strict, .ok .getVersion, .ok .getVariant, .ok .getTime,
      .ok .shift, .ok .shiftB32, .ok .shiftB64, .ok .unshift, .ok .unshiftB32, .ok .unshiftB64, .ok .parse,
      .ok .parseShort, .ok .fromBytes, .ok .fmtCanonical, .ok .fmtC32, .ok .fmtC64, .ok .fmtShort, .ok .fmtRaw,
      .ok .fmtJson, .ok .testReseed] ∧
    [Instr.shift, .shiftB32, .shiftB64, .unshift, .unshiftB32, .unshiftB64].map (fun i => (opcodeOf i).extractLsb' 0 2) =
      [0, 1, 2, 0, 1, 2]

/-- For every command i and every 32-bit command word w, given as a number below 2^32, the decoder reads i from w exactly when bits [7:0] of w are i's opcode, whatever bits [31:8] hold; decoding the encoder's word gives i back; and no two commands share a word. (R110, R112, R115) -/
def Obligations.DecodeReadsExactlyTheEncodedCommand : Prop :=
  (∀ (i : Instr) (w : Nat), w < 2 ^ 32 → (decodeTableWord 32 w = some i ↔ w % 256 = (opcodeOf i).toNat)) ∧
    (∀ (i : Instr) (hi : BitVec 24), decodeWord (hi ++ opcodeOf i) = .ok i) ∧
    (∀ i : Instr, decodeWord (encode i) = .ok i) ∧
    (∀ i j : Instr, encode i = encode j → i = j)

/-- An opcode is outside the map exactly when it lies in one of the ranges the rule lists. On a READY block a CMD write of such an opcode to an idle port is accepted (SEQ = BUSY(op), DONE, ERR and OVR cleared), and the port's next perform step does complete(p, 8) and changes nothing else. (R113) -/
def Obligations.IllegalOpcodeCompletesWithCodeEight : Prop :=
  ∀ op : Byte,
    ((∀ i, decodeOpcode op ≠ .ok i) ↔ illegalRange op = true) ∧
    (illegalRange op = true → ∀ (s : State) (p : Nat) (q : Port) (v : Word),
      PortIs s p q → s.g.phase = .ready → q.seq = .idle → v.extractLsb' 0 8 = op →
      ∃ u, s.busWrite (s.base + windowOffset p) 4 v = .next u ∧
        u = { answered s .done with ports := s.ports.set p { q with done := false, err := 0, ovr := false, seq := .busy op } } ∧
        u.portStep p = .next
          { s with
            ports := s.ports.set p { q with done := true, err := 8, ovr := false, seq := .idle }
            env := { s.env with resp := .done, cur := p } })

/-- When the next event is a step of port p on a READY block and p's sequencer holds the opcode op (BUSY(op), or a strict state with op = 0x04): if op decodes to i, the machine's step is exec of i with p as the current port and the event taken off; if op does not decode, the step completes p with code 8 and changes nothing else of the block. The events and the current port are the model's own record (log 1, 2, 17). (R39, R40, R96, R100, R113) -/
def Obligations.StepRunsTheCommandInProgress : Prop :=
  ∀ (s : State) (p : Nat) (q : Port) (op : Byte),
    s.nextEvent = .portStep p → s.g.phase = .ready → s.ports[p]? = some q →
    (q.seq = .busy op ∨ ((q.seq = .strictAcq ∨ q.seq = .strictSpin) ∧ op = 0x04)) →
    let s' : State :=
      { s with env := { s.env with cur := p, events := s.env.events.tail, eventNo := s.env.eventNo + 1 } }
    (∀ i, decodeOpcode op = .ok i → step s = exec i s') ∧
      (∀ x, decodeOpcode op = .error x →
        step s = .next { s' with ports := s'.ports.set p { q with err := 8, done := true, seq := .idle } })

/-- The machine's step takes its next event: a read or write is that bus access, a seeding event is the seeding step, a reset event is reset with that strap, and a step of a port that is IDLE or absent, or of any port while PHASE is not READY, changes nothing of the block. The event record is the model's own (log 2, 3). (R96, R392, R390) -/
def Obligations.StepTakesTheNextEvent : Prop :=
  ∀ s : State,
    let s' : State := { s with env := { s.env with events := s.env.events.tail, eventNo := s.env.eventNo + 1 } }
    (∀ a n, s.nextEvent = .read a n → step s = s'.busRead a n) ∧
      (∀ a n v, s.nextEvent = .write a n v → step s = s'.busWrite a n v) ∧
      (s.nextEvent = .seedStep → step s = .next s'.seedingStep) ∧
      (∀ b, s.nextEvent = .reset b → step s = .next (s'.assertReset b)) ∧
      (∀ p, s.nextEvent = .portStep p →
        (s.g.phase ≠ .ready ∨ s.ports[p]? = none ∨ ∃ q, s.ports[p]? = some q ∧ q.seq = .idle) → step s = .next s')

/-- A 32-bit write of v to port p's CMD: if PHASE = READY and p is IDLE, DONE, ERR and OVR are cleared, SEQ becomes STRICT_ACQ for opcode 0x04 and BUSY(v[7:0]) for every other opcode, and STATUS.BUSY reads 1; otherwise OVR is set and nothing else changes. An opcode with no rule completes with IllegalCommand in its perform step. (R92) -/
def Obligations.CommandWriteIsAcceptedOrDropped : Prop :=
  (∀ (s : State) (p : Nat) (q : Port) (v : Word), PortIs s p q →
    (s.g.phase = .ready ∧ q.seq = .idle →
      ∃ q', s.busWrite (s.base + windowOffset p) 4 v = .next { answered s .done with ports := s.ports.set p q' } ∧
        q' = { q with
          done := false, err := 0, ovr := false
          seq := if v.extractLsb' 0 8 = 0x04#8 then .strictAcq else .busy (v.extractLsb' 0 8) } ∧
        (statusWord s.g q').getLsbD 0 = true) ∧
    (¬ (s.g.phase = .ready ∧ q.seq = .idle) →
      s.busWrite (s.base + windowOffset p) 4 v =
        .next { answered s .done with ports := s.ports.set p { q with ovr := true } })) ∧
    (∀ (s : State) (q : Port) (op : Byte), s.ports[s.env.cur]? = some q → (∀ i, decodeOpcode op ≠ .ok i) →
      s.runOpcode op = .next (endedWith s s.g q 8))

/-- A write to ILEN, IDj, ARG_NS_LO, ARG_NS_HI, ARG_VER or IBUFj of a port that is not IDLE changes nothing of the block. On an IDLE port it takes effect at once: reading the register back gives the value, cut to the register's width, and every other register of the port and every other port keeps its value. (R93) -/
def Obligations.OperandWritesNeedAnIdlePort : Prop :=
  ∀ (s : State) (p : Nat) (q : Port) (r : PortReg) (v : Word), PortIs s p q → r.exists = true →
    (r = .ilen ∨ (∃ j, r = .id j) ∨ r = .argNsLo ∨ r = .argNsHi ∨ r = .argVer ∨ ∃ j, r = .ibuf j) →
    let addr := s.base + windowOffset p + portRegOffset r
    (q.seq ≠ .idle → s.busWrite addr 4 v = .next (answered s .done)) ∧
      (q.seq = .idle → ∃ q', s.busWrite addr 4 v = .next { answered s .done with ports := s.ports.set p q' } ∧
        readPort s.g q' r = (if r = .ilen then v &&& 0xFF else if r = .argVer then v &&& 0xF else v) ∧
        ∀ r' : PortReg, r'.exists = true → r' ≠ r → readPort s.g q' r' = readPort s.g q r')

/-- An access in the register space of a width other than 4 bytes, or at an offset that is no multiple of 4, gets the bus error response, returns no data and changes no state of the block; an aligned 32-bit read returns data. (R81) -/
def Obligations.BadAccessGetsABusErrorAndChangesNothing : Prop :=
  ∀ (s : State) (off n : Nat) (v : Word), off < 4096 →
    (n ≠ 4 ∨ off % 4 ≠ 0 →
      s.busRead (s.base + off) n = .next (answered s .error) ∧
        s.busWrite (s.base + off) n v = .next (answered s .error)) ∧
    (off % 4 = 0 → ∃ d, s.busRead (s.base + off) 4 = .next (answered s (.data d)))

/-- A bus read leaves every register of the block as it was, and the same read again gives the same response. (R90) -/
def Obligations.ReadsHaveNoSideEffects : Prop :=
  ∀ (s t : State) (a n : Nat), s.busRead a n = .next t →
    t = answered s t.env.resp ∧ t.busRead a n = .next t ∧
      ∀ a' n', (∃ r, s.busRead a' n' = .next (answered s r) ∧ t.busRead a' n' = .next (answered t r)) ∨
        (s.busRead a' n' = .fault (.outsideRegisterSpace a') ∧ t.busRead a' n' = .fault (.outsideRegisterSpace a'))

/-- An aligned offset that is reserved in the block-wide map, or in a port's window, or that lies in the window of a port that does not exist, reads 0 and ignores writes; with TESTMODE = 0 so do the offsets of TEST_CLOCK and TEST_SEED. A 32-bit write to GSTATUS, LAST_LO, LAST_HI, or to STATUS, OLEN, RES, TS_MS_LO, TS_MS_HI, TS_SUBNS or OBUFj of a port changes nothing of the block, and a read of CMD returns 0. (R82, R86, R87, R88) -/
def Obligations.WritesElsewhereAreIgnored : Prop :=
  (∀ (s : State) (off : Nat), off < 4096 → off % 4 = 0 →
    (off = 0x004 ∨ off = 0x018 ∨ off = 0x01C ∨ (0x040 ≤ off ∧ off < 0x100) ∨
      (0x100 ≤ off ∧ (s.nPorts ≤ off / 0x100 - 1 ∨ off % 0x100 = 0x3C ∨ 0xC0 ≤ off % 0x100)) ∨
      (s.g.testMode = false ∧ (off = 0x010 ∨ off = 0x014 ∨ (0x020 ≤ off ∧ off < 0x040)))) →
    s.busRead (s.base + off) 4 = .next (answered s (.data 0)) ∧
      ∀ v, s.busWrite (s.base + off) 4 v = .next (answered s .done)) ∧
    (∀ (s : State) (v : Word),
      (∀ r : GlobalReg, r = .gstatus ∨ r = .lastLo ∨ r = .lastHi →
        s.busWrite (s.base + globalRegOffset r) 4 v = .next (answered s .done)) ∧
      (∀ (p : Nat) (q : Port) (r : PortReg), PortIs s p q → r.exists = true →
        (r = .status ∨ r = .olen ∨ r = .res ∨ r = .tsMsLo ∨ r = .tsMsHi ∨ r = .tsSubns ∨ ∃ j, r = .obuf j) →
        s.busWrite (s.base + windowOffset p + portRegOffset r) 4 v = .next (answered s .done)) ∧
      (∀ (p : Nat) (q : Port), PortIs s p q → s.busRead (s.base + windowOffset p) 4 = .next (answered s (.data 0))))

/-- A 32-bit read at W(p) = 0x100 * (p + 1) plus the window offset of a register of an existing port returns that register of that port, and a read at a block-wide register's offset returns that register; so the map sends no two registers to one offset. RES holds RES_VER in [3:0], RES_VAR in [5:4] and TS_VALID in 8; ILEN, OLEN, ARG_VER and TS_SUBNS hold their number; ARG_NS, TS_MS, LAST_MS and, in test mode, TEST_CLOCK have their low 32 bits in the LO register and the rest in HI, where LAST_HI has LAST_SLOT in [27:16]; every other bit of these is 0. Word j of ID, IBUF, OBUF and, in test mode, TEST_SEED holds byte 4j+i in bits [8i+7:8i]. STATUS and GSTATUS have a statement of their own. (R84, R85, R86, R87, R375) -/
def Obligations.AddressMapReachesEachRegister : Prop :=
  ∀ s : State,
    (∀ (p : Nat) (q : Port) (r : PortReg), PortIs s p q → r.exists = true →
      s.busRead (s.base + 0x100 * (p + 1) + portRegOffset r) 4 = .next (answered s (.data (readPort s.g q r)))) ∧
    (∀ r : GlobalReg, r.exists = true →
      s.busRead (s.base + globalRegOffset r) 4 = .next (answered s (.data (readGlobal s r)))) ∧
    (∀ q : Port,
      readPort s.g q .cmd = 0 ∧
      (readPort s.g q .res).toNat = q.tsValid.toNat * 2 ^ 8 + q.resVar.toNat * 2 ^ 4 + q.resVer.toNat ∧
      (readPort s.g q .ilen).toNat = q.ilen.toNat ∧ (readPort s.g q .olen).toNat = q.olen.toNat ∧
      (readPort s.g q .argVer).toNat = q.argVer.toNat ∧ (readPort s.g q .tsSubns).toNat = q.tsSubns.toNat ∧
      (readPort s.g q .argNsLo).toNat = q.argNs.toNat % 2 ^ 32 ∧ (readPort s.g q .argNsHi).toNat = q.argNs.toNat / 2 ^ 32 ∧
      (readPort s.g q .tsMsLo).toNat = q.tsMs.toNat % 2 ^ 32 ∧ (readPort s.g q .tsMsHi).toNat = q.tsMs.toNat / 2 ^ 32 ∧
      (∀ j i : Nat, i < 4 →
        (readPort s.g q (.id j)).toNat / 256 ^ i % 256 = (byteAt q.id (4 * j + i)).toNat ∧
        (readPort s.g q (.ibuf j)).toNat / 256 ^ i % 256 = (byteAt q.ibuf (4 * j + i)).toNat ∧
        (readPort s.g q (.obuf j)).toNat / 256 ^ i % 256 = (byteAt q.obuf (4 * j + i)).toNat)) ∧
    (readGlobal s .lastLo).toNat = s.g.lastMs.toNat % 2 ^ 32 ∧
    (readGlobal s .lastHi).toNat = s.g.lastSlot.toNat * 2 ^ 16 + s.g.lastMs.toNat / 2 ^ 32 ∧
    (s.g.testMode = true →
      (readGlobal s .testClockLo).toNat = s.g.testClock.toNat % 2 ^ 32 ∧
      (readGlobal s .testClockHi).toNat = s.g.testClock.toNat / 2 ^ 32 ∧
      ∀ j i : Nat, i < 4 →
        (readGlobal s (.testSeed j)).toNat / 256 ^ i % 256 = (byteAt s.g.testSeed (4 * j + i)).toNat)

/-- A read of port p's STATUS leaves the port as it is and returns BUSY (SEQ != IDLE) in bit 0, DONE in 1, OVR in 2, ERR in [7:4], READY in 8, FATAL in 9, WAITING (SEQ is STRICT_ACQ or STRICT_SPIN) in 10, and 0 in bits 3 and [31:11]; right after reset it is 0; and a command keeps ERR at 0 to 5 or 8. A read of GSTATUS returns READY in bit 0, FATAL in 1, TESTMODE in 2, LOCKED in 3, FATAL_CAUSE in [7:4], the holder's port index (0 when the lock is free) in [11:8], N_PORTS in [19:16] and 0 in [15:12] and [31:20], when N_PORTS and the holder's index fit their fields. (R48, R49, R54) -/
def Obligations.StatusRegistersShowTheirFields : Prop :=
  (∀ (s : State) (p : Nat) (q : Port), PortIs s p q →
    ∃ w : Word, s.busRead (s.base + windowOffset p + 4) 4 = .next (answered s (.data w)) ∧
      w.getLsbD 0 = decide (q.seq ≠ .idle) ∧ w.getLsbD 1 = q.done ∧ w.getLsbD 2 = q.ovr ∧ w.getLsbD 3 = false ∧
      w.extractLsb' 4 4 = q.err ∧ w.getLsbD 8 = decide (s.g.phase = .ready) ∧ w.getLsbD 9 = decide (s.g.phase = .fatal) ∧
      w.getLsbD 10 = decide (q.seq = .strictAcq ∨ q.seq = .strictSpin) ∧ w.extractLsb' 11 21 = 0) ∧
    (∀ q ∈ State.reset.ports, statusWord State.reset.g q = 0) ∧
    (∀ (i : Instr) (s t : State) (q q' : Port), s.ports[s.env.cur]? = some q → q.err ∈ [0, 1, 2, 3, 4, 5, 8] →
      exec i s = .next t → t.ports[s.env.cur]? = some q' → q'.err ∈ [0, 1, 2, 3, 4, 5, 8]) ∧
    (∀ s : State, s.nPorts ≤ 15 → (∀ p, s.g.lock = some p → p < 16) →
      ∃ w : Word, s.busRead s.base 4 = .next (answered s (.data w)) ∧
        w.getLsbD 0 = decide (s.g.phase = .ready) ∧ w.getLsbD 1 = decide (s.g.phase = .fatal) ∧
        w.getLsbD 2 = s.g.testMode ∧ w.getLsbD 3 = s.g.lock.isSome ∧ w.extractLsb' 4 4 = s.g.fatalCause ∧
        (w.extractLsb' 8 4).toNat = s.g.lock.getD 0 ∧ w.extractLsb' 12 4 = 0 ∧ (w.extractLsb' 16 4).toNat = s.nPorts ∧
        w.extractLsb' 20 12 = 0)

/-- For j = 0 to 3 a read of IDj returns b[4j+3] ‖ b[4j+2] ‖ b[4j+1] ‖ b[4j]; writing the four words 0x2C7B8601, 0x9C45DDA0, 0xE589D798 and 0x6C8D5345 to an idle port's ID0 to ID3 leaves ID = 01867b2c-a0dd-459c-98d7-89e545538d6c. (R118) -/
def Obligations.IdWordsHoldTheIdentifierLittleEndianByLane : Prop :=
  (∀ (s : State) (p : Nat) (q : Port), PortIs s p q → ∀ j, (hj : j < 4) →
    s.busRead (s.base + windowOffset p + 0x10 + 4 * j) 4 =
      .next (answered s (.data (q.id[4 * j + 3] ++ q.id[4 * j + 2] ++ q.id[4 * j + 1] ++ q.id[4 * j])))) ∧
    (∀ (s : State) (p : Nat) (q : Port), PortIs s p q → q.seq = .idle →
      takeEvents
        [asmWr s.base p (.id 0) 0x2C7B8601, asmWr s.base p (.id 1) 0x9C45DDA0, asmWr s.base p (.id 2) 0xE589D798,
          asmWr s.base p (.id 3) 0x6C8D5345] s =
        .next { answered s .done with
          ports := s.ports.set p
            { q with
              id := #v[0x01, 0x86, 0x7b, 0x2c, 0xa0, 0xdd, 0x45, 0x9c, 0x98, 0xd7, 0x89, 0xe5, 0x45, 0x53, 0x8d, 0x6c] } })

/-- With TESTMODE = 1 a write to TEST_CLOCK_LO, TEST_CLOCK_HI or TEST_SEEDj takes effect at once whatever the ports do: reading it back gives the value, and nothing else of the block changes; with TESTMODE = 0 the write changes nothing and the read returns 0. (R38, R82, R373) -/
def Obligations.TestRegistersFollowTheStrap : Prop :=
  ∀ (s : State) (r : GlobalReg) (v : Word), r.exists = true →
    (r = .testClockLo ∨ r = .testClockHi ∨ ∃ j, r = .testSeed j) →
    let addr := s.base + globalRegOffset r
    (s.g.testMode = true → ∃ g', s.busWrite addr 4 v = .next { answered s .done with g := g' } ∧
      g' = { s.g with testClock := g'.testClock, testSeed := g'.testSeed } ∧
      readGlobal { s with g := g' } r = v ∧
      ∀ r' : GlobalReg, r'.exists = true → r' ≠ r → readGlobal { s with g := g' } r' = readGlobal s r') ∧
    (s.g.testMode = false →
      s.busWrite addr 4 v = .next (answered s .done) ∧ s.busRead addr 4 = .next (answered s (.data 0)))

/-- State.reset and the state after a reset event hold, in every shared and per-port register, the value the reset table gives; TESTMODE is the strap's value. G.SEED, to which the table gives no value, is not claimed about. (R54) -/
def Obligations.ResetSetsTheListedValues : Prop :=
  (∀ (s : State) (strap : Bool), ∃ t, s.takeEvent (.reset strap) = .next t ∧ t.base = s.base ∧ t.nPorts = s.nPorts ∧
      t.g = { t.g with
        phase := .seeding, fatalCause := 0, testMode := strap, rngPos := 0, lastMs := 0, lastSlot := 0, lock := none,
        testClock := 0, testSeed := Vector.replicate 32 0 } ∧
      ∀ q ∈ t.ports, q =
        { seq := .idle, done := false, ovr := false, err := 0, id := Vector.replicate 16 0, ibuf := Vector.replicate 64 0,
          ilen := 0, obuf := Vector.replicate 64 0, olen := 0, argNs := 0, argVer := 0, resVer := 0, resVar := 0,
          tsValid := false, tsMs := 0, tsSubns := 0 }) ∧
    (∀ seed, { State.reset.g with seed := seed } =
      { phase := .seeding, fatalCause := 0, testMode := Config.testModeStrap, seed := seed, rngPos := 0, lastMs := 0,
        lastSlot := 0, lock := none, testClock := 0, testSeed := Vector.replicate 32 0 }) ∧
    (∀ q ∈ State.reset.ports, q =
      { seq := .idle, done := false, ovr := false, err := 0, id := Vector.replicate 16 0, ibuf := Vector.replicate 64 0,
        ilen := 0, obuf := Vector.replicate 64 0, olen := 0, argNs := 0, argVer := 0, resVer := 0, resVar := 0,
        tsValid := false, tsMs := 0, tsSubns := 0 })

/-- In PHASE = SEEDING the seeding step in test mode loads SEED from TEST_SEED without a draw, and in production draws ENTROPY once: a full draw becomes SEED, a short draw raises Fatal(6) and writes only FATAL_CAUSE and PHASE. A load sets RNG_POS to 0 and PHASE to READY and changes nothing else. In READY and FATAL there is no seeding step. While PHASE is not READY no CMD write is accepted. (R173) -/
def Obligations.SeedingStepSeedsOrHalts : Prop :=
  ∀ s : State,
    (s.g.phase = .seeding → s.g.testMode = true →
      s.seedingStep = { s with g := { s.g with seed := s.g.testSeed, rngPos := 0, phase := .ready } }) ∧
    (s.g.phase = .seeding → s.g.testMode = false →
      let e : Env := { s.env with entropyIn := s.env.entropyIn.tail, entropyNo := s.env.entropyNo + 1 }
      match s.env.entropyIn.headD (Config.entropy s.env.entropyNo) with
      | none => s.seedingStep = { s with g := { s.g with fatalCause := 6, phase := .fatal }, env := e }
      | some seed => s.seedingStep = { s with g := { s.g with seed := seed, rngPos := 0, phase := .ready }, env := e }) ∧
    (s.g.phase ≠ .seeding → s.seedingStep = s) ∧
    (∀ (p : Nat) (q : Port) (v : Word), s.g.phase ≠ .ready → PortIs s p q →
      ∃ t q', s.busWrite (s.base + windowOffset p) 4 v = .next t ∧ t.ports[p]? = some q' ∧ q'.seq = q.seq)

/-- Opcode 0x00 is NOP. In every state NOP answers a next state in which only the current port's ERR (0), DONE (1) and SEQ (IDLE) are written: OVR and every other register keep their values. From STATUS = 0x132 it leads to STATUS = 0x102. (R171) -/
def Obligations.NopOnlyCompletes : Prop :=
  decodeOpcode 0x00 = .ok .nop ∧
    (∀ s : State, exec .nop s = .next (endedWith s s.g s.port 0)) ∧
    (∀ (g : Shared) (q : Port), statusWord g { q with seq := .idle } = 0x132 →
      statusWord g { q with err := 0, done := true, seq := .idle } = 0x102)

/-- Opcode 0x7F is TEST_RESEED. TEST_RESEED in test mode sets SEED to TEST_SEED and RNG_POS to 0 and completes with code 0; in production it completes with code 8. Nothing else changes in either mode: LAST_MS, LAST_SLOT and LOCK keep their values. After two TEST_RESEED with one TEST_SEED the following fills give the same bytes. (R172) -/
def Obligations.TestReseedLoadsTheSeedOnlyInTestMode : Prop :=
  decodeOpcode 0x7F = .ok .testReseed ∧
    (∀ s : State, s.g.testMode = true →
      exec .testReseed s = .next (endedWith s { s.g with seed := s.g.testSeed, rngPos := 0 } s.port 0)) ∧
    (∀ s : State, s.g.testMode = false → exec .testReseed s = .next (endedWith s s.g s.port 8)) ∧
    (∀ s1 s2 t1 t2 : State, s1.g.testMode = true → s2.g.testMode = true → s1.g.testSeed = s2.g.testSeed →
      exec .testReseed s1 = .next t1 → exec .testReseed s2 = .next t2 → ∀ n, t1.fillBytes n = t2.fillBytes n)

/-- In every state GET_VERSION completes with code 0 and RES_VER = bits [79:76] of the identifier's number, GET_VARIANT completes with code 0 and RES_VAR = its bits [63:62], and every other register keeps its value. (R190, R191, R192) -/
def Obligations.AccessorsWriteOnlyTheirField : Prop :=
  ∀ s : State,
    (∃ v : BitVec 4, exec .getVersion s = .next (endedWith s s.g { s.port with resVer := v } 0) ∧
      v.toNat = numberOfIdent s.port.id / 2 ^ 76 % 16) ∧
    (∃ v : BitVec 2, exec .getVariant s = .next (endedWith s s.g { s.port with resVar := v } 0) ∧
      v.toNat = numberOfIdent s.port.id / 2 ^ 62 % 4)

/-- Opcode 0x0A is GET_TIME. In every state GET_TIME completes with code 0: for a value of version 7, whatever its variant, TS_VALID = 1, TS_MS is the 48-bit field of the number and TS_SUBNS = slot * 1000000 div 4096, at most 999755; for every other value all three are 0. Every other register keeps its value. (R193) -/
def Obligations.GetTimeReadsAVersionSevenTime : Prop :=
  decodeOpcode 0x0A = .ok .getTime ∧ ∀ s : State, ∃ (valid : Bool) (ms : BitVec 48) (sub : BitVec 20),
    exec .getTime s = .next (endedWith s s.g { s.port with tsValid := valid, tsMs := ms, tsSubns := sub } 0) ∧
    let u := numberOfIdent s.port.id
    (u / 2 ^ 76 % 16 = 7 → valid = true ∧ ms.toNat = u / 2 ^ 80 ∧
      sub.toNat = u / 2 ^ 64 % 2 ^ 12 * 1000000 / 4096 ∧ sub.toNat ≤ 999755) ∧
    (u / 2 ^ 76 % 16 ≠ 7 → valid = false ∧ ms = 0 ∧ sub = 0)

/-- For a tick ns >= 0 split into (ms, slot) and the time T reconstructed from the pair: T <= ns, ns - T <= 245 with the bound reached at ns mod 10^6 = 1953, T has the ms of ns, and splitting T again gives the same slot exactly when slot mod 64 = 0, which holds of 64 of the 4096 slots, and slot - 1 otherwise. (R195) -/
def Obligations.ReconstructedTimeIsCloseBelowTheTick : Prop :=
  (∀ ns : Nat,
    let T := reconstructTime (splitMs ns) (splitSlot ns)
    T ≤ ns ∧ ns - T ≤ 245 ∧ (ns % 1000000 = 1953 → ns - T = 245) ∧ splitMs T = splitMs ns ∧
      splitSlot T = (if splitSlot ns % 64 = 0 then splitSlot ns else splitSlot ns - 1) ∧
      (splitSlot T = splitSlot ns ↔ splitSlot ns % 64 = 0)) ∧
    ((List.range 4096).filter fun slot => slot % 64 == 0).length = 64

/-- For every tick below 2^63 the millisecond count is at most 9223372036854, below 2^48, and the slot at most 4095; for n1 <= n2 the pair of n1 is not later than the pair of n2. (R210, R211, R212) -/
def Obligations.SplitIsMonotoneAndFits : Prop :=
  (∀ ns : Nat, ns < 2 ^ 63 → splitMs ns ≤ 9223372036854 ∧ splitMs ns < 2 ^ 48 ∧ splitSlot ns ≤ 4095) ∧
    (∀ n1 n2 : Nat, n1 ≤ n2 →
      splitMs n1 < splitMs n2 ∨ (splitMs n1 = splitMs n2 ∧ splitSlot n1 ≤ splitSlot n2))

/-- Opcode 0x01 is GEN_V4. In every state GEN_V4 completes with code 0: ID takes the 16 bytes of Fill(16) with the high nibble of byte 6 replaced by 0100 and the top bits of byte 8 by 10, so it is well-formed; RNG_POS advances by 16; the clock is not drawn, and every other register keeps its value. The bytes 00 to 0f give 00010203-0405-4607-8809-0a0b0c0d0e0f. (R213) -/
def Obligations.GenV4WritesAWellFormedRandomIdentifier : Prop :=
  decodeOpcode 0x01 = .ok .genV4 ∧
    (∀ s : State, ∃ b : Ident,
    exec .genV4 s = .next (endedWith s { s.g with rngPos := s.g.rngPos + 16 } { s.port with id := b } 0) ∧
    let r := Config.prngBytes s.g.seed s.g.rngPos.toNat 16
    (∀ i : Nat, i < 16 → i ≠ 6 → i ≠ 8 → byteAt b i = byteAt r i) ∧
      b[6] = (r[6] &&& 0x0F#8) ||| 0x40#8 ∧ b[8] = (r[8] &&& 0x3F#8) ||| 0x80#8 ∧ b.wellFormed = true) ∧
    v4Ident #v[0, 1, 2, 3, 4, 5, 6, 7, 8, 9, 10, 11, 12, 13, 14, 15] =
      #v[0, 1, 2, 3, 4, 5, 0x46, 7, 0x88, 9, 10, 11, 12, 13, 14, 15]

/-- GEN_V7 with a non-negative sample and GEN_V7_AT with a non-negative ARG_NS complete with code 0: ID takes the millisecond count and slot of the tick, version 7, variant 10 and the remaining bits of Fill(8); RNG_POS advances by 8. GEN_V7 samples TEST_CLOCK in test mode and draws CLOCK once in production, GEN_V7_AT draws nothing. LAST_MS, LAST_SLOT, LOCK and every other register keep their values. (R175, R177, R178, R210, R214, R215, R223) -/
def Obligations.GenV7WritesTheTickAndRandomBytes : Prop :=
  ∀ s : State,
    let r := Config.prngBytes s.g.seed s.g.rngPos.toNat 8
    let g' := { s.g with rngPos := s.g.rngPos + 8 }
    (0 ≤ s.port.argNs.toInt → ∃ b, IsV7 b s.port.argNs.toNat r ∧
      exec .genV7At s = .next (endedWith s g' { s.port with id := b } 0)) ∧
    (∀ ns e, Sampled s ns e → 0 ≤ ns.toInt → ∃ b, IsV7 b ns.toNat r ∧
      exec .genV7 s = .next { endedWith s g' { s.port with id := b } 0 with env := e })

/-- GEN_V7_AT with a negative ARG_NS, GEN_V7 with a negative sample and a strict spin step with a negative sample set FATAL_CAUSE to 7 and PHASE to FATAL and change no other register of any port or of the shared state: RNG_POS and a held LOCK keep their values, and from then on no step of any port is taken. So writing ARG_NS_HI with bit 31 set and issuing GEN_V7_AT halts the block. (R361) -/
def Obligations.NegativeTickHaltsTheBlock : Prop :=
  (∀ s : State,
    let g' := { s.g with fatalCause := 7, phase := .fatal }
    (s.port.argNs.toInt < 0 → exec .genV7At s = .next { s with g := g' }) ∧
    (∀ ns e, Sampled s ns e → ns.toInt < 0 →
      exec .genV7 s = .next { s with g := g', env := e } ∧
        (s.port.seq = .strictSpin → exec .genV7Strict s = .next { s with g := g', env := e })) ∧
    (∀ p, State.portStep { s with g := g' } p = .next { s with g := g' })) ∧
    (∀ (s : State) (p : Nat) (q : Port) (v : Word), PortIs s p q → s.g.phase = .ready → q.seq = .idle →
      v.getLsbD 31 = true → ∃ t,
        takeEvents [asmWr s.base p .argNsHi v, asmCmd s.base p .genV7At, .portStep p] s = .next t ∧
        t.g = { s.g with fatalCause := 7, phase := .fatal })

/-- Any port in STRICT_ACQ may take the acquire step: with LOCK = none and PHASE = READY its step sets LOCK to the port and SEQ to STRICT_SPIN and changes nothing else of the block; while LOCK is held, by whatever port, or while PHASE is not READY, its step changes nothing of the block. The command's own meaning in STRICT_ACQ does the same. (R217) -/
def Obligations.StrictAcquireTakesAFreeLock : Prop :=
  (∀ (s : State) (p : Nat) (q : Port), s.ports[p]? = some q → q.seq = .strictAcq →
    (s.g.lock = none → s.g.phase = .ready →
      s.portStep p = .next
        { s with
          g := { s.g with lock := some p }
          ports := s.ports.set p { q with seq := .strictSpin }
          env := { s.env with cur := p } }) ∧
    (s.g.lock ≠ none ∨ s.g.phase ≠ .ready → ∃ t, s.portStep p = .next t ∧ t = { s with env := { s.env with cur := t.env.cur } })) ∧
    (∀ s : State, s.port.seq = .strictAcq →
      (s.g.lock = none →
        exec .genV7Strict s = .next
          { s with
            g := { s.g with lock := some s.env.cur }
            ports := s.ports.set s.env.cur { s.port with seq := .strictSpin } }) ∧
      (∀ p, s.g.lock = some p → exec .genV7Strict s = .next s))

/-- GEN_V7_STRICT in STRICT_SPIN with the sample ns: a negative ns sets FATAL_CAUSE = 7 and PHASE = FATAL with LOCK kept; a pair (ms, slot) greater than (LAST_MS, LAST_SLOT) is recorded, the lock is released, ID takes the v7 identifier of the tick with Fill(8), RNG_POS advances by 8 and the command completes with code 0; otherwise nothing of the block changes. While PHASE is not READY no port has a step. (R218) -/
def Obligations.StrictSpinCompletesOnlyOnALaterPair : Prop :=
  ∀ (s : State) (ns : BitVec 64) (e : Env), s.port.seq = .strictSpin → Sampled s ns e →
    let ms := ns.toNat / 1000000
    let slot := ns.toNat % 1000000 * 4096 / 1000000
    let later := s.g.lastMs.toNat < ms ∨ (s.g.lastMs.toNat = ms ∧ s.g.lastSlot.toNat < slot)
    (ns.toInt < 0 → exec .genV7Strict s = .next { s with g := { s.g with fatalCause := 7, phase := .fatal }, env := e }) ∧
    (0 ≤ ns.toInt → later → ∃ b, IsV7 b ns.toNat (Config.prngBytes s.g.seed s.g.rngPos.toNat 8) ∧
      exec .genV7Strict s = .next
        { endedWith s
            { s.g with
              lastMs := BitVec.ofNat 48 ms, lastSlot := BitVec.ofNat 12 slot, lock := none, rngPos := s.g.rngPos + 8 }
            { s.port with id := b } 0 with
          env := e }) ∧
    (0 ≤ ns.toInt → ¬ later → exec .genV7Strict s = .next { s with env := e }) ∧
    (s.g.phase ≠ .ready → ∀ p, s.portStep p = .next s)

/-- (m1, s1) > (m2, s2) holds iff m1 > m2, or m1 = m2 and s1 > s2; iff the 60-bit number m1 ‖ s1 is greater than m2 ‖ s2; and iff the first 8 bytes of any v7 identifier of the first pair are greater, as an unsigned big-endian number, than those of any of the second. (R219) -/
def Obligations.PairOrderIsTheOrderOfTheFirstEightBytes : Prop :=
  ∀ (m1 m2 : BitVec 48) (s1 s2 : BitVec 12) (r1 r2 : Vector Byte 8),
    (laterPair m1 s1 m2 s2 = true ↔ m2.toNat < m1.toNat ∨ (m1 = m2 ∧ s2.toNat < s1.toNat)) ∧
    (laterPair m1 s1 m2 s2 = true ↔ (m2 ++ s2).toNat < (m1 ++ s1).toNat) ∧
    (laterPair m1 s1 m2 s2 = true ↔ first8 (v7Ident m2 s2 r2) < first8 (v7Ident m1 s1 r1))

/-- If two GEN_V7 commands, on whatever ports and in whatever states, sample non-negative ticks of which the second is not below the first, the first 8 bytes of their results, as unsigned big-endian numbers, do not decrease. In every execution that meets the premise CLOCK_NONDECREASING, of two GEN_V7 commands that complete, on one port or on two, the one whose step comes first has first 8 bytes that are not above the other's. For GEN_V7_AT the order is that of the ARG_NS values. (R179, R212, R214, R215, R221) -/
def Obligations.PlainResultsFollowTheirTicks : Prop :=
  (∀ (s1 s2 : State) (n1 n2 : BitVec 64) (e1 e2 : Env), Sampled s1 n1 e1 → Sampled s2 n2 e2 → 0 ≤ n1.toInt →
    ClockNondecreasing [n1, n2] → s1.env.cur < s1.nPorts → s2.env.cur < s2.nPorts →
    ∃ t1 t2, exec .genV7 s1 = .next t1 ∧ exec .genV7 s2 = .next t2 ∧ first8 t1.port.id ≤ first8 t2.port.id) ∧
    (∀ (run : Nat → State) (ev : Nat → Event), IsExecution run ev → ExecutionClockNondecreasing run ev →
      ∀ (m n : Nat) (b1 b2 : Ident), m ≤ n → PlainCompletion (run m) (ev m) (run (m + 1)) b1 →
        PlainCompletion (run n) (ev n) (run (n + 1)) b2 → first8 b1 ≤ first8 b2) ∧
    (∀ s1 s2 : State, 0 ≤ s1.port.argNs.toInt → s1.port.argNs.toInt ≤ s2.port.argNs.toInt →
      s1.env.cur < s1.nPorts → s2.env.cur < s2.nPorts →
      ∃ t1 t2, exec .genV7At s1 = .next t1 ∧ exec .genV7At s2 = .next t2 ∧ first8 t1.port.id ≤ first8 t2.port.id)

/-- Along every run without a reset, for every clock and every interleaving, the last-issued pair never decreases; and when one port completes GEN_V7_STRICT and later, with no reset between, a port (the same or another) completes it again, the first 8 bytes of the second result are strictly greater than those of the first. (R36, R218, R222, R224) -/
def Obligations.StrictResultsStrictlyIncrease : Prop :=
  (∀ (n : Nat) (s t : State), RunsWithoutReset n s t → lastPair s ≤ lastPair t) ∧
    (∀ (n : Nat) (s1 t1 s2 t2 : State) (b1 b2 : Ident), StrictCompletion s1 t1 b1 → RunsWithoutReset n t1 s2 →
      StrictCompletion s2 t2 b2 → lastPair t1 < lastPair t2 ∧ first8 b1 < first8 b2)

/-- In every state each shift command completes with code 0: OBUF[0..14] are the 120 content bits of ID, OBUF[15] is vn * 16 shifted right by k (0, 1, 2), OBUF is 0 from index 16, OLEN = 16, RES_VER is the version nibble, and every other register keeps its value, ID among them. (R240, R241, R242, R243, R244) -/
def Obligations.ShiftCommandsMoveTheVersionAndVariantNibbles : Prop :=
  ∀ s : State, ∀ ik ∈ [(Instr.shift, 0), (.shiftB32, 1), (.shiftB64, 2)], ∃ (f : Ident) (v : BitVec 4),
    exec ik.1 s =
      .next (endedWith s s.g { s.port with obuf := bytesPadded 64 f.toList, olen := 16, resVer := v } 0) ∧
    let u := numberOfIdent s.port.id
    v.toNat = u / 2 ^ 76 % 16 ∧ numberBE 256 (byteValues (f.toList.take 15)) = contentNumber u ∧
      f[15].toNat = u / 2 ^ 60 % 16 * 16 / 2 ^ ik.2

/-- In every state each unshift command completes with code 0, whatever ILEN holds: ID takes the content of IBUF[0..14], the version ARG_VER, and as variant nibble bits 7:4, 6:3 or 5:2 of IBUF[15] (k = 0, 1, 2); every other register keeps its value. (R245, R246, R247, R248) -/
def Obligations.UnshiftCommandsRebuildTheIdentifier : Prop :=
  ∀ s : State, ∀ ik ∈ [(Instr.unshift, 0), (.unshiftB32, 1), (.unshiftB64, 2)], ∃ b : Ident,
    exec ik.1 s = .next (endedWith s s.g { s.port with id := b } 0) ∧
    contentNumber (numberOfIdent b) = numberBE 256 (byteValues (s.port.ibuf.toList.take 15)) ∧
      versionOf b = s.port.argVer ∧ variantNibbleOf b = (byteAt s.port.ibuf 15).extractLsb' (4 - ik.2) 4

/-- For all 2^128 values b and k = 0, 1, 2, unshift_k of shift_k(b) with b's version is b; and as commands, on an existing port: shift, copy OBUF[0..15] to IBUF[0..15] and RES_VER to ARG_VER, then unshift with the same k, leaves ID as it was. (R249) -/
def Obligations.UnshiftUndoesShift : Prop :=
  (∀ (b : Ident) (k : Nat), k < 3 → unshiftBytes k (shiftBytes k b) (versionOf b) = b) ∧
    (∀ s : State, s.env.cur < s.nPorts →
      ∀ ij ∈ [(Instr.shift, Instr.unshift), (.shiftB32, .unshiftB32), (.shiftB64, .unshiftB64)],
        ∃ t u, exec ij.1 s = .next t ∧ exec ij.2 (copyShiftToUnshift t) = .next u ∧ u.port.id = s.port.id)

/-- For every 16-byte q, version v and k = 0, 1, 2, shift_k of unshift_k(q, v) gives v back and q with the ignored bits of q[15] cleared, so it gives (v, q) back exactly when those bits are all 0; and unshift_k is injective on inputs whose ignored bits are 0. (R251) -/
def Obligations.ShiftUndoesUnshiftUpToIgnoredBits : Prop :=
  ∀ k : Nat, k < 3 →
    let kept := 0xF0#8 >>> k
    (∀ (q : Ident) (v : BitVec 4), versionOf (unshiftBytes k q v) = v ∧
      shiftBytes k (unshiftBytes k q v) = q.set 15 (q[15] &&& kept) ∧
      (shiftBytes k (unshiftBytes k q v) = q ↔ q[15] &&& ~~~kept = 0)) ∧
    (∀ (q q' : Ident) (v v' : BitVec 4), q[15] &&& ~~~kept = 0 → q'[15] &&& ~~~kept = 0 →
      unshiftBytes k q v = unshiftBytes k q' v' → q = q' ∧ v = v')

/-- In every state each parse command answers a next state in one of two ways: ERR = 0 with a value in ID, which for PARSE and PARSE_SHORT is well-formed, or ERR = a code from 1 to 5 with ID = nil. It writes no other register of the port or of the block, and its result depends on IBUF and ILEN only. FROM_BYTES can leave a value that is not well-formed. (R270, R298, R357) -/
def Obligations.ParseCommandsEndWellFormedOrNil : Prop :=
  (∀ (s : State), ∀ i ∈ [Instr.parse, .parseShort, .fromBytes],
    (∃ b : Ident, exec i s = .next (endedWith s s.g { s.port with id := b } 0) ∧
      (i ≠ .fromBytes → b.wellFormed = true)) ∨
    (∃ e : ParseError, e.code ∈ [1, 2, 3, 4, 5] ∧
      exec i s = .next (endedWith s s.g { s.port with id := Vector.replicate 16 0 } e.code))) ∧
    (∃ (s : State) (b : Ident), b.wellFormed = false ∧
      exec .fromBytes s = .next (endedWith s s.g { s.port with id := b } 0)) ∧
    (∀ (s1 s2 t1 t2 : State), s1.env.cur < s1.nPorts → s2.env.cur < s2.nPorts → s1.port.ibuf = s2.port.ibuf →
      s1.port.ilen = s2.port.ilen → ∀ i ∈ [Instr.parse, .parseShort, .fromBytes], exec i s1 = .next t1 →
      exec i s2 = .next t2 → t1.port.id = t2.port.id ∧ t1.port.err = t2.port.err)

/-- In every state FROM_BYTES with ILEN = 16 completes with code 0 and ID = IBUF[0..15], well-formed or not and with quote bytes kept; with any other ILEN it fails with code 1 and ID = nil. Nothing else changes. (R291) -/
def Obligations.FromBytesTakesExactlySixteenBytes : Prop :=
  ∀ s : State,
    (s.port.ilen = 16 → ∃ b : Ident, exec .fromBytes s = .next (endedWith s s.g { s.port with id := b } 0) ∧
      ∀ i : Nat, i < 16 → byteAt b i = byteAt s.port.ibuf i) ∧
    (s.port.ilen ≠ 16 →
      exec .fromBytes s = .next (endedWith s s.g { s.port with id := Vector.replicate 16 0 } 1))

/-- PARSE with ILEN > 64 completes with code 1 and ID = nil. With ILEN <= 64 it completes with code 0 and the value that the parser gives for IBUF[0..ILEN-1], or with ID = nil and code 1, 2, 3, 4 or 5 for MalformedLength, MalformedSeparator, UnsupportedVersion, InvalidVariant or InvalidDigit; nothing else changes. The parser fails with MalformedLength on an input whose length after stripping one matched pair of quotes is none of 16, 22, 26 and 36, and reads 16 bytes as they stand, checked by validate. A string between two quotes is parsed as the string, a string without a quote at both ends as it stands, and a lone quote is not stripped. (R271, R272, R273, R274, R288, R350, R357) -/
def Obligations.ParseDispatchesOnTheStrippedLength : Prop :=
  (∀ s : State, 64 < s.port.ilen.toNat →
    exec .parse s = .next (endedWith s s.g { s.port with id := Vector.replicate 16 0 } 1)) ∧
    (∀ s : State, s.port.ilen.toNat ≤ 64 →
      let r := parseText (s.port.ibuf.toList.take s.port.ilen.toNat)
      (∀ b, r = .ok b → exec .parse s = .next (endedWith s s.g { s.port with id := b } 0)) ∧
      (∀ (e : ParseError) (code : BitVec 4), r = .error e →
        (e, code) ∈ [(.malformedLength, 1), (.malformedSeparator, 2), (.unsupportedVersion, 3), (.invalidVariant, 4),
          (ParseError.invalidDigit, 5)] →
        exec .parse s = .next (endedWith s s.g { s.port with id := Vector.replicate 16 0 } code))) ∧
    (∀ l : List Byte, l.length ∉ [16, 22, 26, 36] → parseStripped l = .error .malformedLength) ∧
    (∀ l : List Byte, parseText (0x22 :: l ++ [0x22]) = parseStripped l) ∧
    (∀ l : List Byte, (l.head? ≠ some 0x22 ∨ l.getLast? ≠ some 0x22 ∨ l.length < 2) → parseText l = parseStripped l) ∧
    (∀ l : List Byte, l.length ∈ [0, 1, 2, 15, 17, 35, 37, 39] → parseText l = .error .malformedLength) ∧
    (∀ b : Ident, parseStripped b.toList = (match validate b with | none => .ok b | some e => .error e))

/-- For a 36-character string: a wrong dash gives code 2 whatever else is wrong; then version character 0 gives nil for the nil literal and code 3 otherwise; f or F gives max for the max literal in either case and code 3 otherwise; 4 or 7 gives code 4 unless character 19 is one of 8 9 A a B b, then code 5 if some of the 32 digits is no hex digit, and else the value of the hex digits, well-formed and of that version; every other version character gives code 3. (R275, R276, R277, R278, R279, R280) -/
def Obligations.CanonicalChecksComeInOrder : Prop :=
  ∀ l : List Byte, l.length = 36 →
    let c := charAt l 14
    let dashes := charAt l 8 = 0x2D ∧ charAt l 13 = 0x2D ∧ charAt l 18 = 0x2D ∧ charAt l 23 = 0x2D
    let variantChar := charAt l 19 ∈ ([0x38, 0x39, 0x41, 0x61, 0x42, 0x62] : List Byte)
    (¬ dashes → parseStripped l = .error .malformedSeparator) ∧
    (dashes → c = 0x30 →
      parseStripped l = if l = text "00000000-0000-0000-0000-000000000000" then .ok (Vector.replicate 16 0)
        else .error .unsupportedVersion) ∧
    (dashes → c = 0x66 ∨ c = 0x46 →
      parseStripped l = if l.map lower = text "ffffffff-ffff-ffff-ffff-ffffffffffff" then .ok (Vector.replicate 16 0xFF)
        else .error .unsupportedVersion) ∧
    (dashes → c ∉ ([0x30, 0x66, 0x46, 0x34, 0x37] : List Byte) → parseStripped l = .error .unsupportedVersion) ∧
    (dashes → c = 0x34 ∨ c = 0x37 → ¬ variantChar → parseStripped l = .error .invalidVariant) ∧
    (dashes → c = 0x34 ∨ c = 0x37 → variantChar →
      (digitValues hexValue (canonicalHex l) = none → parseStripped l = .error .invalidDigit) ∧
      (∀ ds, digitValues hexValue (canonicalHex l) = some ds → ∃ b, parseStripped l = .ok b ∧
        numberOfIdent b = numberBE 16 ds ∧ b.wellFormed = true ∧ versionOf b = (if c = 0x34 then 4 else 7)))

/-- A 26-character string that starts with E, e, H or h parses with InvalidDigit if one of the other 25 characters is no base-32 digit. Otherwise it parses exactly when its last character is one of I J K L Y Z 2 3 i j k l y z, to the well-formed value of version 4 or 7 whose 120 content bits are the number of the digits but the last and whose variant nibble is the last digit mod 16, so that discarded bits do not matter; and else it fails with InvalidVariant. A 22-character string likewise with base-64 digits and the last characters I J K L Y Z a b o p q r 4 5 6 7. (R281, R282, R284, R285, R286, R287) -/
def Obligations.CompactFinalCharacterDecidesTheVariant : Prop :=
  (∀ l : List Byte, l.length = 26 → charAt l 0 ∈ text "EeHh" →
      (digitValues base32Value (l.drop 1) = none → parseStripped l = .error .invalidDigit) ∧
      (∀ ds, digitValues base32Value (l.drop 1) = some ds →
        (charAt l 25 ∈ text "IJKLYZ23ijklyz" →
          ∃ b, parseStripped l = .ok b ∧ b.wellFormed = true ∧
            versionOf b = (if upper (charAt l 0) = 0x45 then 4 else 7) ∧
            contentNumber (numberOfIdent b) = numberBE 32 ds.dropLast ∧
            (variantNibbleOf b).toNat = ds.getLastD 0 % 16) ∧
        (charAt l 25 ∉ text "IJKLYZ23ijklyz" → parseStripped l = .error .invalidVariant))) ∧
    (∀ l : List Byte, l.length = 22 → charAt l 0 ∈ text "EeHh" →
      (digitValues base64Value (l.drop 1) = none → parseStripped l = .error .invalidDigit) ∧
      (∀ ds, digitValues base64Value (l.drop 1) = some ds →
        (charAt l 21 ∈ text "IJKLYZabopqr4567" →
          ∃ b, parseStripped l = .ok b ∧ b.wellFormed = true ∧
            versionOf b = (if upper (charAt l 0) = 0x45 then 4 else 7) ∧
            contentNumber (numberOfIdent b) = numberBE 64 ds.dropLast ∧
            (variantNibbleOf b).toNat = ds.getLastD 0 % 16) ∧
        (charAt l 21 ∉ text "IJKLYZabopqr4567" → parseStripped l = .error .invalidVariant)))

/-- A 26- or 22-character string whose first character is none of A E H P in either case fails with code 3. One that starts with A or P (either case) parses to nil or max exactly when it is the form's literal, compared without case for base 32 and exactly from the second character on for base 64; otherwise it fails with code 3, whatever its digits. (R123, R281, R282, R283) -/
def Obligations.CompactLiteralsAndLeadingCharacters : Prop :=
  ∀ l : List Byte,
    (l.length = 26 ∨ l.length = 22 → charAt l 0 ∉ text "AaEeHhPp" → parseStripped l = .error .unsupportedVersion) ∧
    (l.length = 26 → charAt l 0 ∈ text "Aa" →
      parseStripped l = if l.map upper = List.replicate 26 0x41 then .ok (Vector.replicate 16 0)
        else .error .unsupportedVersion) ∧
    (l.length = 26 → charAt l 0 ∈ text "Pp" →
      parseStripped l = if l.map upper = text "P777777777777777777777777P" then .ok (Vector.replicate 16 0xFF)
        else .error .unsupportedVersion) ∧
    (l.length = 22 → charAt l 0 ∈ text "Aa" →
      parseStripped l = if l.drop 1 = List.replicate 21 0x41 then .ok (Vector.replicate 16 0)
        else .error .unsupportedVersion) ∧
    (l.length = 22 → charAt l 0 ∈ text "Pp" →
      parseStripped l = if l.drop 1 = text "____________________P" then .ok (Vector.replicate 16 0xFF)
        else .error .unsupportedVersion)

/-- For a 36- or 26-character string, any two strings that are equal when letters are folded to one case parse alike. For a 22-character string, two strings that differ only in the case of the first character parse alike. (R279, R282, R284, R289, R300) -/
def Obligations.CaseOfLettersInCanonicalAndCompactForms : Prop :=
  (∀ l m : List Byte, (l.length = 36 ∨ l.length = 26) → l.map upper = m.map upper → parseStripped l = parseStripped m) ∧
    (∀ (c d : Byte) (l : List Byte), l.length = 21 → upper c = upper d →
      parseStripped (c :: l) = parseStripped (d :: l))

/-- PARSE_SHORT with ILEN > 64 completes with code 1 and ID = nil. With ILEN <= 64 it completes with code 0 and the value that the decoder gives for IBUF[0..ILEN-1], or with ID = nil and code 1, 3, 4 or 5 for MalformedLength, UnsupportedVersion, InvalidVariant or InvalidDigit (the decoder never gives MalformedSeparator); nothing else changes. The decoder fails with MalformedLength on a trimmed length other than 22. A trimmed string of 22 characters fails with InvalidDigit if some character is not in the alphabet or if its base-57 value is 2^128 or more; otherwise the result is the identifier with that value, or validate's code. Surrounding whitespace does not matter. (R292, R293, R294, R295, R296, R297, R350, R357) -/
def Obligations.ParseShortDecodesAndChecksTheRange : Prop :=
  (∀ s : State, 64 < s.port.ilen.toNat →
    exec .parseShort s = .next (endedWith s s.g { s.port with id := Vector.replicate 16 0 } 1)) ∧
    (∀ s : State, s.port.ilen.toNat ≤ 64 →
      let r := parseShortText (s.port.ibuf.toList.take s.port.ilen.toNat)
      (∀ b, r = .ok b → exec .parseShort s = .next (endedWith s s.g { s.port with id := b } 0)) ∧
      (∀ (e : ParseError) (code : BitVec 4), r = .error e →
        (e, code) ∈ [(.malformedLength, 1), (.unsupportedVersion, 3), (.invalidVariant, 4), (ParseError.invalidDigit, 5)] →
        exec .parseShort s = .next (endedWith s s.g { s.port with id := Vector.replicate 16 0 } code))) ∧
    (∀ l : List Byte, parseShortText l ≠ .error .malformedSeparator) ∧
    (∀ l : List Byte, (trim l).length ≠ 22 → parseShortText l = .error .malformedLength) ∧
    (∀ l : List Byte, (trim l).length = 22 →
      (digitValues base57Value (trim l) = none → parseShortText l = .error .invalidDigit) ∧
      (∀ ds, digitValues base57Value (trim l) = some ds →
        (2 ^ 128 ≤ numberBE 57 ds → parseShortText l = .error .invalidDigit) ∧
        (numberBE 57 ds < 2 ^ 128 → ∃ b : Ident, numberOfIdent b = numberBE 57 ds ∧
          parseShortText l = (match validate b with | none => .ok b | some e => .error e)))) ∧
    (∀ l w1 w2 : List Byte, (∀ c ∈ w1 ++ w2, c ∈ ([0x20, 0x09, 0x0A, 0x0B, 0x0C, 0x0D] : List Byte)) →
      parseShortText (w1 ++ l ++ w2) = parseShortText l)

/-- validate(b) gives no error exactly for the well-formed values: nil, max, and version 4 or 7 with variant 10. For any other value it gives UnsupportedVersion when the version is neither 4 nor 7, and InvalidVariant otherwise. (R290) -/
def Obligations.ValidateAcceptsExactlyTheWellFormed : Prop :=
  ∀ b : Ident,
    (validate b = none ↔ b.wellFormed = true) ∧
    (b.wellFormed = true ↔ b = Vector.replicate 16 0 ∨ b = Vector.replicate 16 0xFF ∨
      ((b[6].toNat / 16 = 4 ∨ b[6].toNat / 16 = 7) ∧ b[8].toNat / 64 = 2)) ∧
    (b.wellFormed = false → ¬ (b[6].toNat / 16 = 4 ∨ b[6].toNat / 16 = 7) → validate b = some .unsupportedVersion) ∧
    (b.wellFormed = false → (b[6].toNat / 16 = 4 ∨ b[6].toNat / 16 = 7) → validate b = some .invalidVariant)

/-- In every state FMT_CANONICAL completes with code 0 and writes 36 characters: dashes at 8, 13, 18 and 23, and elsewhere the 32 hex digits of the identifier's number, most significant first, in lower case; FMT_JSON writes the same string between two quotes, 38 characters. OBUF is 0 past the output, and nothing but OBUF and OLEN is written. (R121, R122, R131, R320, R321, R326) -/
def Obligations.CanonicalFormatsWriteFiveHexGroups : Prop :=
  ∀ s : State, ∃ f : List Byte, f.length = 36 ∧
    (∀ i : Nat, i ∈ [8, 13, 18, 23] → charAt f i = 0x2D) ∧
    canonicalHex f = (digitsBE 16 32 (numberOfIdent s.port.id)).map (symbol (text "0123456789abcdef")) ∧
    exec .fmtCanonical s = .next (endedWith s s.g { s.port with obuf := bytesPadded 64 f, olen := 36 } 0) ∧
    exec .fmtJson s =
      .next (endedWith s s.g { s.port with obuf := bytesPadded 64 (0x22 :: f ++ [0x22]), olen := 38 } 0)

/-- In every state FMT_C32 completes with code 0 and writes 'A' + version, the 24 base-32 digits of the 120 content bits, and 'A' + variant nibble, 26 characters; FMT_C64 writes 'A' + version, the 20 base-64 digits of the content and 'A' + variant nibble, 22 characters. OBUF is 0 past the output, and nothing but OBUF and OLEN is written. (R123, R126, R127, R250, R320, R322, R323) -/
def Obligations.CompactFormatsWriteVersionContentAndBookend : Prop :=
  ∀ s : State,
    let u := numberOfIdent s.port.id
    let first := BitVec.ofNat 8 (0x41 + u / 2 ^ 76 % 16)
    let last := BitVec.ofNat 8 (0x41 + u / 2 ^ 60 % 16)
    let f32 := first :: (digitsBE 32 24 (contentNumber u)).map (symbol (text "ABCDEFGHIJKLMNOPQRSTUVWXYZ234567")) ++ [last]
    let f64 := first :: (digitsBE 64 20 (contentNumber u)).map
      (symbol (text "ABCDEFGHIJKLMNOPQRSTUVWXYZabcdefghijklmnopqrstuvwxyz0123456789-_")) ++ [last]
    exec .fmtC32 s = .next (endedWith s s.g { s.port with obuf := bytesPadded 64 f32, olen := 26 } 0) ∧
      exec .fmtC64 s = .next (endedWith s s.g { s.port with obuf := bytesPadded 64 f64, olen := 22 } 0)

/-- In every state FMT_SHORT completes with code 0 and writes 22 characters of the alphabet whose base-57 value, most significant digit first, is the identifier's number; OBUF is 0 past the output, and nothing but OBUF and OLEN is written. (R128, R129, R320, R324) -/
def Obligations.ShortFormatWritesTheNumberInBaseFiftySeven : Prop :=
  ∀ s : State, ∃ (f : List Byte) (ds : List Nat), f.length = 22 ∧
    exec .fmtShort s = .next (endedWith s s.g { s.port with obuf := bytesPadded 64 f, olen := 22 } 0) ∧
    f = ds.map (symbol (text "23456789ABCDEFGHJKLMNPQRSTUVWXYZabcdefghijkmnopqrstuvwxyz")) ∧
    (∀ d ∈ ds, d ≤ 56) ∧ numberBE 57 ds = numberOfIdent s.port.id

/-- Opcode 0x34 is FMT_RAW. In every state FMT_RAW completes with code 0 and writes b[0..15] to OBUF[0..15], 0 past them, and OLEN = 16; nothing else is written, and word j of OBUF equals word j of ID for j = 0 to 3. (R325) -/
def Obligations.RawFormatCopiesTheIdentifier : Prop :=
  decodeOpcode 0x34 = .ok .fmtRaw ∧ ∀ s : State, ∃ p : Port, exec .fmtRaw s = .next (endedWith s s.g p 0) ∧
    p = { s.port with obuf := bytesPadded 64 s.port.id.toList, olen := 16 } ∧
    (∀ i : Nat, i < 16 → byteAt p.obuf i = byteAt s.port.id i) ∧ (∀ i : Nat, 16 ≤ i → byteAt p.obuf i = 0) ∧
    (∀ j : Nat, j < 4 → laneWord p.obuf j = laneWord s.port.id j)

/-- With ID = nil, and with ID = max, FMT_CANONICAL, FMT_C32, FMT_C64 and FMT_SHORT write the fixed constants; and PARSE of each of the first three constants gives the value back. (R327) -/
def Obligations.NilAndMaxHaveTheirFixedForms : Prop :=
  let nil : Ident := Vector.replicate 16 0
    let max : Ident := Vector.replicate 16 0xFF
    (∀ (i : Instr) (b : Ident) (f : List Byte),
      (i, b, f) ∈
        [(.fmtCanonical, nil, text "00000000-0000-0000-0000-000000000000"),
          (.fmtC32, nil, text "AAAAAAAAAAAAAAAAAAAAAAAAAA"), (.fmtC64, nil, text "AAAAAAAAAAAAAAAAAAAAAA"),
          (.fmtShort, nil, text "2222222222222222222222"),
          (.fmtCanonical, max, text "ffffffff-ffff-ffff-ffff-ffffffffffff"),
          (.fmtC32, max, text "P777777777777777777777777P"), (.fmtC64, max, text "P____________________P"),
          (.fmtShort, max, text "oZEq7ovRbLq6UnGMPwc8B5")] →
      (∀ s : State, s.port.id = b →
        exec i s = .next
          (endedWith s s.g { s.port with obuf := bytesPadded 64 f, olen := BitVec.ofNat 8 f.length } 0)) ∧
      (i ≠ .fmtShort → ∀ s : State, s.port.input = f → s.port.ilen.toNat = f.length →
        exec .parse s = .next (endedWith s s.g { s.port with id := b } 0)))

/-- On an existing port whose ID is well-formed: FMT_CANONICAL or FMT_JSON, then the copy of OBUF to IBUF and OLEN to ILEN, then PARSE, gives ID as it was and ERR = 0. (R299, R329) -/
def Obligations.CanonicalAndJsonFormsRoundTrip : Prop :=
  ∀ s : State, s.env.cur < s.nPorts → s.port.id.wellFormed = true →
    (∃ t u, exec .fmtCanonical s = .next t ∧ exec .parse (copyOutputToInput t) = .next u ∧ u.port.id = s.port.id ∧ u.port.err = 0) ∧
    (∃ t u, exec .fmtJson s = .next t ∧ exec .parse (copyOutputToInput t) = .next u ∧ u.port.id = s.port.id ∧ u.port.err = 0)

/-- On an existing port whose ID is well-formed: FMT_C32 or FMT_C64, then the copy of OBUF to IBUF and OLEN to ILEN, then PARSE, gives ID as it was and ERR = 0. (R299, R329) -/
def Obligations.CompactFormsRoundTrip : Prop :=
  ∀ s : State, s.env.cur < s.nPorts → s.port.id.wellFormed = true →
    (∃ t u, exec .fmtC32 s = .next t ∧ exec .parse (copyOutputToInput t) = .next u ∧ u.port.id = s.port.id ∧ u.port.err = 0) ∧
    (∃ t u, exec .fmtC64 s = .next t ∧ exec .parse (copyOutputToInput t) = .next u ∧ u.port.id = s.port.id ∧ u.port.err = 0)

/-- On an existing port whose ID is well-formed: FMT_SHORT, then the copy of OBUF to IBUF and OLEN to ILEN, then PARSE_SHORT, gives ID as it was and ERR = 0; so do FMT_RAW, the copy and PARSE, unless b[0] = b[15] = 0x22, in which case PARSE fails with code 1 and ID = nil. (R273, R274, R299, R329) -/
def Obligations.ShortAndRawFormsRoundTrip : Prop :=
  ∀ s : State, s.env.cur < s.nPorts → s.port.id.wellFormed = true →
    (∃ t u, exec .fmtShort s = .next t ∧ exec .parseShort (copyOutputToInput t) = .next u ∧ u.port.id = s.port.id ∧ u.port.err = 0) ∧
    (¬ (s.port.id[0] = 0x22 ∧ s.port.id[15] = 0x22) →
      ∃ t u, exec .fmtRaw s = .next t ∧ exec .parse (copyOutputToInput t) = .next u ∧ u.port.id = s.port.id ∧ u.port.err = 0) ∧
    (s.port.id[0] = 0x22 ∧ s.port.id[15] = 0x22 →
      ∃ t u, exec .fmtRaw s = .next t ∧ exec .parse (copyOutputToInput t) = .next u ∧
        u.port.id = Vector.replicate 16 0 ∧ u.port.err = 1)

/-- On an existing port, one step of a command answers a next state in which: NOP, GEN_V4, the accessors, the repack and the format commands have ended with code 0; PARSE has ended with a code 0 to 5, PARSE_SHORT with 0, 1, 3, 4 or 5, FROM_BYTES with 0 or 1, TEST_RESEED with 0 in test mode and 8 in production; and PHASE has changed only for GEN_V7, GEN_V7_AT and GEN_V7_STRICT, then to FATAL with cause 7 and the port as it was. (R350, R351, R358) -/
def Obligations.EachCommandHasItsPossibleCodes : Prop :=
  ∀ (i : Instr) (s : State), s.env.cur < s.nPorts → ∃ t, exec i s = .next t ∧
    (i ∈ [.nop, .genV4, .getVersion, .getVariant, .getTime, .shift, .shiftB32, .shiftB64, .unshift, .unshiftB32,
        .unshiftB64, .fmtCanonical, .fmtC32, .fmtC64, .fmtShort, .fmtRaw, .fmtJson] → t.port.err = 0) ∧
    (i = .parse → t.port.err ∈ [0, 1, 2, 3, 4, 5]) ∧
    (i = .parseShort → t.port.err ∈ [0, 1, 3, 4, 5]) ∧
    (i = .fromBytes → t.port.err ∈ [0, 1]) ∧
    (i = .testReseed → t.port.err = if s.g.testMode then 0 else 8) ∧
    (i ∉ [.genV7, .genV7At, .genV7Strict] → t.port.done = true ∧ t.port.seq = .idle ∧ t.g.phase = s.g.phase) ∧
    (i ∈ [.genV7, .genV7At, .genV7Strict] →
      (t.g.phase = s.g.phase ∧ t.g.fatalCause = s.g.fatalCause ∧ (t.port = s.port ∨ t.port.err = 0 ∨ t.port.seq = .strictSpin)) ∨
      (t.g.phase = .fatal ∧ t.g.fatalCause = 7 ∧ t.ports = s.ports))

/-- While PHASE = FATAL, every event but a reset leaves PHASE, FATAL_CAUSE, SEED, RNG_POS, LAST_MS, LAST_SLOT and LOCK as they are; a port's or the seeding sequencer's step changes nothing at all; every port keeps SEQ, DONE and ERR, so BUSY never clears; and a port that is not IDLE keeps every register but OVR. (R32, R33, R360) -/
def Obligations.FatalStopsEveryAgentUntilReset : Prop :=
  ∀ (s t : State) (e : Event), s.g.phase = .fatal → isReset e = false → s.takeEvent e = .next t →
    t.g = { s.g with testClock := t.g.testClock, testSeed := t.g.testSeed } ∧
    ((∃ p, e = .portStep p) ∨ e = .seedStep → t = s) ∧
    t.nPorts = s.nPorts ∧
    ∀ (p : Nat) (q : Port), s.ports[p]? = some q → ∃ q', t.ports[p]? = some q' ∧
      q'.seq = q.seq ∧ q'.done = q.done ∧ q'.err = q.err ∧ (q.seq ≠ .idle → q' = { q with ovr := q'.ovr })

/-- For every event but a reset: a port that is not IDLE before the event and not IDLE after it has the same ID, OBUF, OLEN, RES_VER, RES_VAR, TS_VALID, TS_MS, TS_SUBNS, ERR and DONE, and the same IBUF, ILEN, ARG_NS and ARG_VER, after as before. (R93, R94, R394) -/
def Obligations.ResultsAppearOnlyAtCompletion : Prop :=
  ∀ (s t : State) (e : Event) (p : Nat) (q q' : Port), isReset e = false → s.takeEvent e = .next t →
    s.ports[p]? = some q → t.ports[p]? = some q' → q.seq ≠ .idle → q'.seq ≠ .idle →
    resultRegisters q' = resultRegisters q ∧ q'.ibuf = q.ibuf ∧ q'.ilen = q.ilen ∧ q'.argNs = q.argNs ∧
      q'.argVer = q.argVer

/-- One step of a command leaves every other port as it was; and in two states that agree on the shared state, the outside world's record and the current port, whatever the other ports hold, it gives the same shared state, the same record and the same current port. (R31, R364, R377) -/
def Obligations.CommandsTouchOnlyTheirOwnPort : Prop :=
  (∀ (i : Instr) (s t : State), exec i s = .next t →
    t.base = s.base ∧ t.nPorts = s.nPorts ∧ ∀ p, p ≠ s.env.cur → t.ports[p]? = s.ports[p]?) ∧
    (∀ (i : Instr) (s1 s2 : State) (q : Port), s1.g = s2.g → s1.env = s2.env →
      s1.ports[s1.env.cur]? = some q → s2.ports[s2.env.cur]? = some q →
      ∃ t1 t2, exec i s1 = .next t1 ∧ exec i s2 = .next t2 ∧ t1.g = t2.g ∧ t1.env = t2.env ∧
        t1.ports[s1.env.cur]? = t2.ports[s2.env.cur]?)

/-- With TESTMODE = 0, every event but a reset keeps TESTMODE = 0, TEST_CLOCK and TEST_SEED as they are, and SEED too once the seeding step is over; their registers read 0; TEST_RESEED completes with code 8 and leaves the generator as it was; and each clock sample is a draw of CLOCK. With TESTMODE = 1 no event but a reset leaves test mode. (R180) -/
def Obligations.ProductionCannotReachTheSubstitutes : Prop :=
  (∀ (s t : State) (e : Event), isReset e = false → s.takeEvent e = .next t →
    t.g.testMode = s.g.testMode ∧
      (s.g.testMode = false → t.g.testClock = s.g.testClock ∧ t.g.testSeed = s.g.testSeed ∧
        (s.g.phase ≠ .seeding → t.g.seed = s.g.seed))) ∧
    (∀ s : State, s.g.testMode = false →
      exec .testReseed s = .next (endedWith s s.g s.port 8) ∧
      (∀ r : GlobalReg, r = .testClockLo ∨ r = .testClockHi ∨ (∃ j, r = .testSeed j) → readGlobal s r = 0) ∧
      s.nowValue = s.env.clockIn.headD (Config.clock s.env.clockNo))

/-- State.reset meets the invariant: 1 to 15 ports, BASE a multiple of 4096, no fatal cause, a free lock, every port idle with legal registers. (R7, R54, R80) -/
def Obligations.InvariantHoldsAtReset : Prop :=
  Inv State.reset

/-- From every state that meets the invariant, whatever the next event, a step that answers a next state gives one that meets it: FATAL_CAUSE is 6 or 7 exactly in FATAL, a port is in STRICT_SPIN exactly when it holds LOCK (so at most one is), ERR holds a legal code and is 0 while the port is busy, DONE only on an idle port, OBUF is 0 from OLEN up, TS_SUBNS at most 999755, and N_PORTS and BASE stay legal. (R7, R33, R37, R43, R47, R48, R80, R92, R98) -/
def Obligations.EveryStepKeepsTheInvariant : Prop :=
  ∀ s t : State, Inv s → step s = .next t → Inv t

/-- Every event but a bus access outside the 4096 bytes from BASE answers a next state; such an access faults, which is the model's own choice (log 7). (R81, R82, R89) -/
def Obligations.SafeEventsNeverFault : Prop :=
  ∀ (s : State) (e : Event),
    (addressesBlock s e = true → ∃ t, s.takeEvent e = .next t) ∧
    (addressesBlock s e = false → ∃ a, s.takeEvent e = .fault (.outsideRegisterSpace a) ∧ (a < s.base ∨ s.base + 4096 ≤ a))

/-- In every endless execution that meets the premise PORT_PROGRESS: a SEEDING block leaves SEEDING; on a READY block a port in BUSY(op), op other than 0x04, comes to a completed command; a port in STRICT_ACQ that finds the lock free for as long as it waits comes to STRICT_SPIN; and a port in STRICT_SPIN whose samples exceed the last-issued pair for as long as it spins comes to a completed command; the last three unless a reset or a fatal event comes. (R356, R392, R399, R405) -/
def Obligations.ProgressCompletesCommands : Prop :=
  ∀ (run : Nat → State) (ev : Nat → Event), IsExecution run ev → PortProgress run ev → ∀ n : Nat,
    ((run n).g.phase = .seeding → ∃ m, n ≤ m ∧ (run m).g.phase ≠ .seeding) ∧
    ((run n).g.phase = .ready → ∀ p : Nat,
      (∀ op, op ≠ 0x04 → SeqIs (run n) p (.busy op) → Reaches run ev n fun s => Completed s p) ∧
      (SeqIs (run n) p .strictAcq → (∀ m, n ≤ m → SeqIs (run m) p .strictAcq → (run m).g.lock = none) →
        Reaches run ev n fun s => SeqIs s p .strictSpin) ∧
      (SeqIs (run n) p .strictSpin → (∀ m, n ≤ m → SeqIs (run m) p .strictSpin → SampleIsLater (run m)) →
        Reaches run ev n fun s => Completed s p))
end

