-- ==== Sys2Proof/Laws/Operands.lean ====
section
/-! SUPPORT. What the operand and result forms do: nibbles, padded byte arrays, positional numbers, alphabets, and the
lengths of the output forms. -/

namespace Sys2Proof.Machine

/-! ### Nibbles -/

@[simp] theorem hiNibble_append (a b : BitVec 4) : hiNibble (a ++ b) = a := by revert a b; decide

@[simp] theorem loNibble_append (a b : BitVec 4) : loNibble (a ++ b) = b := by revert a b; decide

@[simp] theorem hiNibble_append_loNibble (y : Byte) : hiNibble y ++ loNibble y = y := by revert y; decide

/-- The nibble moved right by k and left again is the nibble (43_repack.md R249). -/
theorem hiNibble_shift_back (v : BitVec 4) (k : Nat) (hk : k < 3) : hiNibble (((v ++ 0#4) >>> k) <<< k) = v := by
  obtain rfl | rfl | rfl : k = 0 ∨ k = 1 ∨ k = 2 := by omega
  all_goals revert v; decide

/-! ### Padded byte arrays -/

theorem toList_bytesPadded (n : Nat) (l : List Byte) :
    (bytesPadded n l).toList = (l ++ List.replicate n 0).take n := by simp [bytesPadded, Vector.toList]

theorem toList_bytesPadded_of_length {n : Nat} {l : List Byte} (h : l.length = n) :
    (bytesPadded n l).toList = l := by simp [toList_bytesPadded, ← h]

/-- Below the list's end the array holds the list. -/
theorem byteAt_bytesPadded_lt {n : Nat} {l : List Byte} {i : Nat} (hn : i < n) (hl : i < l.length) :
    byteAt (bytesPadded n l) i = l[i] := by
  simp [byteAt, bytesPadded, hn, List.getElem_append_left hl]

/-- From the list's end on the array holds 0x00. -/
theorem byteAt_bytesPadded_ge {n : Nat} {l : List Byte} {i : Nat} (hl : l.length ≤ i) :
    byteAt (bytesPadded n l) i = 0 := by
  by_cases hn : i < n
  · simp [byteAt, bytesPadded, hn, List.getElem_append_right hl]
  · simp [byteAt, hn]

theorem bytesPadded_toList {n : Nat} (v : Vector Byte n) : bytesPadded n v.toList = v := by
  apply Vector.toList_inj.mp
  rw [toList_bytesPadded_of_length (by simp)]

/-! ### Positional numbers -/

@[simp] theorem length_digitsBE (base len n : Nat) : (digitsBE base len n).length = len := by
  induction len generalizing n with
  | zero => rfl
  | succ len ih => simp [digitsBE, ih]

theorem digitsBE_lt {base : Nat} (hb : 0 < base) (len n : Nat) : ∀ d ∈ digitsBE base len n, d < base := by
  induction len generalizing n with
  | zero => simp [digitsBE]
  | succ len ih =>
    intro d hd
    rcases List.mem_append.mp hd with h | h
    · exact ih _ d h
    · rw [List.mem_singleton.mp h]; exact Nat.mod_lt _ hb

@[simp] theorem numberBE_nil (base : Nat) : numberBE base [] = 0 := rfl

@[simp] theorem numberBE_append_singleton (base : Nat) (ds : List Nat) (d : Nat) :
    numberBE base (ds ++ [d]) = numberBE base ds * base + d := by simp [numberBE]

/-- Writing a number in digits and reading it back. -/
theorem numberBE_digitsBE (base len n : Nat) : numberBE base (digitsBE base len n) = n % base ^ len := by
  induction len generalizing n with
  | zero => simp [digitsBE, Nat.mod_one]
  | succ len ih =>
    rw [digitsBE, numberBE_append_singleton, ih, Nat.pow_succ, Nat.mul_comm (base ^ len) base, Nat.mod_mul,
      Nat.mul_comm base, Nat.add_comm]

/-- Reading digits and writing the number again. -/
theorem digitsBE_numberBE {base : Nat} (ds : List Nat) (h : ∀ d ∈ ds, d < base) :
    digitsBE base ds.length (numberBE base ds) = ds := by
  induction ds using List.reverseRecOn with
  | nil => rfl
  | append_singleton ds d ih =>
    have hd : d < base := h d (by simp)
    have hb : 0 < base := by omega
    have hdiv : (numberBE base ds * base + d) / base = numberBE base ds := by
      rw [Nat.mul_comm, Nat.mul_add_div hb, Nat.div_eq_of_lt hd, Nat.add_zero]
    have hmod : (numberBE base ds * base + d) % base = d := by
      rw [Nat.mul_comm, Nat.mul_add_mod, Nat.mod_eq_of_lt hd]
    rw [numberBE_append_singleton, List.length_append, List.length_singleton, digitsBE, hdiv, hmod,
      ih fun x hx => h x (by simp [hx])]

theorem numberBE_lt {base : Nat} (hb : 0 < base) (ds : List Nat) (h : ∀ d ∈ ds, d < base) :
    numberBE base ds < base ^ ds.length := by
  rw [← digitsBE_numberBE ds h, numberBE_digitsBE, length_digitsBE]
  exact Nat.mod_lt _ (Nat.pow_pos hb)

@[simp] theorem length_bytesOfNumber (len n : Nat) : (bytesOfNumber len n).length = len := by simp [bytesOfNumber]

theorem byteValues_lt (l : List Byte) : ∀ d ∈ byteValues l, d < 256 := by
  intro d hd
  obtain ⟨y, -, rfl⟩ := List.mem_map.mp hd
  exact y.isLt

theorem byteValues_bytesOfNumber (len n : Nat) : byteValues (bytesOfNumber len n) = digitsBE 256 len n := by
  have h : ∀ d ∈ digitsBE 256 len n, (BitVec.ofNat 8 d).toNat = d := fun d hd => by
    simpa using digitsBE_lt (base := 256) (by decide) len n d hd
  simp only [byteValues, bytesOfNumber, List.map_map]
  exact (List.map_congr_left (g := id) fun d hd => h d hd).trans (List.map_id _)

/-- A byte list is its number written in bytes. -/
theorem bytesOfNumber_byteValues (l : List Byte) : bytesOfNumber l.length (numberBE 256 (byteValues l)) = l := by
  have h := digitsBE_numberBE (byteValues l) (byteValues_lt l)
  have hl : (byteValues l).length = l.length := by simp [byteValues]
  rw [hl] at h
  rw [bytesOfNumber, h, byteValues, List.map_map]
  exact (List.map_congr_left (g := id) fun y _ => by simp).trans (List.map_id l)

theorem identOfNumber_numberOfIdent (b : Ident) : identOfNumber (numberOfIdent b) = b := by
  have h := bytesOfNumber_byteValues b.toList
  rw [Vector.length_toList] at h
  simp only [identOfNumber, numberOfIdent, h, bytesPadded_toList]

theorem numberOfIdent_lt (b : Ident) : numberOfIdent b < 2 ^ 128 := by
  have h := numberBE_lt (base := 256) (by decide) (byteValues b.toList) (byteValues_lt _)
  have hl : (byteValues b.toList).length = 16 := by simp [byteValues]
  rw [hl] at h
  exact h

theorem numberOfIdent_identOfNumber {n : Nat} (h : n < 2 ^ 128) : numberOfIdent (identOfNumber n) = n := by
  rw [numberOfIdent, identOfNumber, toList_bytesPadded_of_length (length_bytesOfNumber 16 n), byteValues_bytesOfNumber,
    numberBE_digitsBE, Nat.mod_eq_of_lt (by simpa using h)]

/-! ### Alphabets -/

/-- A symbol's value is its index, for each of the four alphabets. -/
theorem hexValue_symbol : ∀ n < 16, hexValue (symbol hexDigits n) = some n := by decide

theorem base32Value_symbol : ∀ n < 32, base32Value (symbol alpha32 n) = some n := by decide

theorem base64Value_symbol : ∀ n < 64, base64Value (symbol alpha64 n) = some n := by decide

theorem base57Value_symbol : ∀ n < 57, base57Value (symbol alpha57 n) = some n := by decide

theorem length_alphabets :
    hexDigits.length = 16 ∧ alpha32.length = 32 ∧ alpha64.length = 64 ∧ alpha57.length = 57 := by decide

/-- The digits written as symbols read back as the digits. -/
theorem digitValues_map_symbol {value : Byte → Option Nat} {alphabet : List Byte} {size : Nat}
    (h : ∀ n < size, value (symbol alphabet n) = some n) (ds : List Nat) (hd : ∀ d ∈ ds, d < size) :
    digitValues value (ds.map (symbol alphabet)) = some ds := by
  induction ds with
  | nil => rfl
  | cons d ds ih =>
    simp [digitValues, h d (hd d (by simp)), ih fun x hx => hd x (by simp [hx])]

theorem digitValues_append (value : Byte → Option Nat) (x y : List Byte) (dx dy : List Nat)
    (hx : digitValues value x = some dx) (hy : digitValues value y = some dy) :
    digitValues value (x ++ y) = some (dx ++ dy) := by
  induction x generalizing dx with
  | nil => simp_all [digitValues]
  | cons c cs ih =>
    simp only [digitValues] at hx
    split at hx
    · rename_i d ds hc hcs
      obtain rfl := Option.some.inj hx
      simp [digitValues, hc, ih ds hcs]
    · cases hx

/-! ### The lengths of the output forms (30_encoding.md R120) -/

@[simp] theorem length_hexOfIdent (b : Ident) : (hexOfIdent b).length = 32 := by
  simp [hexOfIdent, hexOfByte, List.length_flatMap]

@[simp] theorem length_canonicalText (b : Ident) : (canonicalText b).length = 36 := by
  simp [canonicalText, slice, dash]

@[simp] theorem length_compact32Text (b : Ident) : (compact32Text b).length = 26 := by
  simp [compact32Text, groupDigits]

@[simp] theorem length_compact64Text (b : Ident) : (compact64Text b).length = 22 := by
  simp [compact64Text, groupDigits]

@[simp] theorem length_shortText (b : Ident) : (shortText b).length = 22 := by simp [shortText]

@[simp] theorem length_jsonText (b : Ident) : (jsonText b).length = 38 := by simp [jsonText]

/-! ### Times -/

/-- TS_SUBNS fits its register (41_fields.md R193). -/
theorem slotNanoseconds_le {slot : Nat} (h : slot < 4096) : slotNanoseconds slot ≤ 999755 := by
  unfold slotNanoseconds; omega

theorem splitSlot_lt (ns : Nat) : splitSlot ns < 4096 := by unfold splitSlot; omega

/-- The millisecond count of a 64-bit tick fits 48 bits (42_generate.md R211). -/
theorem splitMs_lt {ns : Nat} (h : ns < 2 ^ 63) : splitMs ns < 2 ^ 48 := by unfold splitMs; omega

end Sys2Proof.Machine
end

