-- ==== Sys2Proof/Laws/State.lean ====
section
/-! SUPPORT. One lemma a field for each named update of State, Shared, Port and Env, so that no proof unfolds a record
update. -/

namespace Sys2Proof.Machine

/-! ### State -/

@[simp] theorem State.setPort_base (s : State) (p : Port) : (s.setPort p).base = s.base := rfl
@[simp] theorem State.setPort_g (s : State) (p : Port) : (s.setPort p).g = s.g := rfl
@[simp] theorem State.setPort_ports (s : State) (p : Port) : (s.setPort p).ports = s.ports.set s.env.cur p := rfl
@[simp] theorem State.setPort_env (s : State) (p : Port) : (s.setPort p).env = s.env := rfl

@[simp] theorem State.setShared_base (s : State) (g : Shared) : (s.setShared g).base = s.base := rfl
@[simp] theorem State.setShared_g (s : State) (g : Shared) : (s.setShared g).g = g := rfl
@[simp] theorem State.setShared_ports (s : State) (g : Shared) : (s.setShared g).ports = s.ports := rfl
@[simp] theorem State.setShared_env (s : State) (g : Shared) : (s.setShared g).env = s.env := rfl

@[simp] theorem State.setEnv_base (s : State) (e : Env) : (s.setEnv e).base = s.base := rfl
@[simp] theorem State.setEnv_g (s : State) (e : Env) : (s.setEnv e).g = s.g := rfl
@[simp] theorem State.setEnv_ports (s : State) (e : Env) : (s.setEnv e).ports = s.ports := rfl
@[simp] theorem State.setEnv_env (s : State) (e : Env) : (s.setEnv e).env = e := rfl

@[simp] theorem State.withCurrent_base (s : State) (p : Nat) : (s.withCurrent p).base = s.base := rfl
@[simp] theorem State.withCurrent_g (s : State) (p : Nat) : (s.withCurrent p).g = s.g := rfl
@[simp] theorem State.withCurrent_ports (s : State) (p : Nat) : (s.withCurrent p).ports = s.ports := rfl

@[simp] theorem State.withCurrent_cur (s : State) (p : Nat) : (s.withCurrent p).env.cur = p := rfl

@[simp] theorem State.respond_base (s : State) (r : BusResponse) : (s.respond r).base = s.base := rfl
@[simp] theorem State.respond_g (s : State) (r : BusResponse) : (s.respond r).g = s.g := rfl
@[simp] theorem State.respond_ports (s : State) (r : BusResponse) : (s.respond r).ports = s.ports := rfl

@[simp] theorem State.respond_resp (s : State) (r : BusResponse) : (s.respond r).env.resp = r := rfl

@[simp] theorem State.afterClock_base (s : State) : (s.afterClock).base = s.base := rfl
@[simp] theorem State.afterClock_g (s : State) : (s.afterClock).g = s.g := rfl
@[simp] theorem State.afterClock_ports (s : State) : (s.afterClock).ports = s.ports := rfl

@[simp] theorem State.afterClock_cur (s : State) : (s.afterClock).env.cur = s.env.cur := rfl

@[simp] theorem State.afterEntropy_base (s : State) : (s.afterEntropy).base = s.base := rfl
@[simp] theorem State.afterEntropy_g (s : State) : (s.afterEntropy).g = s.g := rfl
@[simp] theorem State.afterEntropy_ports (s : State) : (s.afterEntropy).ports = s.ports := rfl

@[simp] theorem State.afterEntropy_cur (s : State) : (s.afterEntropy).env.cur = s.env.cur := rfl

@[simp] theorem State.afterEvent_base (s : State) : (s.afterEvent).base = s.base := rfl
@[simp] theorem State.afterEvent_g (s : State) : (s.afterEvent).g = s.g := rfl
@[simp] theorem State.afterEvent_ports (s : State) : (s.afterEvent).ports = s.ports := rfl

@[simp] theorem State.afterEvent_cur (s : State) : (s.afterEvent).env.cur = s.env.cur := rfl

@[simp] theorem State.completeWith_base (s : State) (p : Port) : (s.completeWith p).base = s.base := rfl
@[simp] theorem State.completeWith_g (s : State) (p : Port) : (s.completeWith p).g = s.g := rfl
@[simp] theorem State.completeWith_env (s : State) (p : Port) : (s.completeWith p).env = s.env := rfl
@[simp] theorem State.completeWith_ports (s : State) (p : Port) : (s.completeWith p).ports = s.ports.set s.env.cur (p.complete 0) := rfl

@[simp] theorem State.raiseFail_base (s : State) (e : ParseError) : (s.raiseFail e).base = s.base := rfl
@[simp] theorem State.raiseFail_g (s : State) (e : ParseError) : (s.raiseFail e).g = s.g := rfl
@[simp] theorem State.raiseFail_env (s : State) (e : ParseError) : (s.raiseFail e).env = s.env := rfl
@[simp] theorem State.raiseFail_ports (s : State) (e : ParseError) : (s.raiseFail e).ports = s.ports.set s.env.cur (s.port.fail e) := rfl

@[simp] theorem State.raiseFatal_base (s : State) (c : FatalCause) : (s.raiseFatal c).base = s.base := rfl
@[simp] theorem State.raiseFatal_g (s : State) (c : FatalCause) : (s.raiseFatal c).g = s.g.raiseFatal c := rfl
@[simp] theorem State.raiseFatal_env (s : State) (c : FatalCause) : (s.raiseFatal c).env = s.env := rfl
@[simp] theorem State.raiseFatal_ports (s : State) (c : FatalCause) : (s.raiseFatal c).ports = s.ports := rfl

@[simp] theorem State.illegalCommand_base (s : State) : (s.illegalCommand).base = s.base := rfl
@[simp] theorem State.illegalCommand_g (s : State) : (s.illegalCommand).g = s.g := rfl
@[simp] theorem State.illegalCommand_env (s : State) : (s.illegalCommand).env = s.env := rfl
@[simp] theorem State.illegalCommand_ports (s : State) : (s.illegalCommand).ports = s.ports.set s.env.cur (s.port.complete illegalCommandCode) := rfl

@[simp] theorem State.afterFill_base (s : State) (n : Nat) : (s.afterFill n).base = s.base := rfl
@[simp] theorem State.afterFill_g (s : State) (n : Nat) : (s.afterFill n).g = { s.g with rngPos := s.g.rngPos + BitVec.ofNat 64 n } := rfl
@[simp] theorem State.afterFill_env (s : State) (n : Nat) : (s.afterFill n).env = s.env := rfl
@[simp] theorem State.afterFill_ports (s : State) (n : Nat) : (s.afterFill n).ports = s.ports := rfl

/-! ### Shared -/

@[simp] theorem Shared.raiseFatal_phase (g : Shared) (c : FatalCause) : (g.raiseFatal c).phase = .fatal := rfl
@[simp] theorem Shared.raiseFatal_fatalCause (g : Shared) (c : FatalCause) : (g.raiseFatal c).fatalCause = c.code := rfl
@[simp] theorem Shared.raiseFatal_testMode (g : Shared) (c : FatalCause) : (g.raiseFatal c).testMode = g.testMode := rfl
@[simp] theorem Shared.raiseFatal_seed (g : Shared) (c : FatalCause) : (g.raiseFatal c).seed = g.seed := rfl
@[simp] theorem Shared.raiseFatal_rngPos (g : Shared) (c : FatalCause) : (g.raiseFatal c).rngPos = g.rngPos := rfl
@[simp] theorem Shared.raiseFatal_lastMs (g : Shared) (c : FatalCause) : (g.raiseFatal c).lastMs = g.lastMs := rfl
@[simp] theorem Shared.raiseFatal_lastSlot (g : Shared) (c : FatalCause) : (g.raiseFatal c).lastSlot = g.lastSlot := rfl
@[simp] theorem Shared.raiseFatal_lock (g : Shared) (c : FatalCause) : (g.raiseFatal c).lock = g.lock := rfl
@[simp] theorem Shared.raiseFatal_testClock (g : Shared) (c : FatalCause) : (g.raiseFatal c).testClock = g.testClock := rfl
@[simp] theorem Shared.raiseFatal_testSeed (g : Shared) (c : FatalCause) : (g.raiseFatal c).testSeed = g.testSeed := rfl

@[simp] theorem Shared.loadSeed_phase (g : Shared) (x : Seed) : (g.loadSeed x).phase = g.phase := rfl
@[simp] theorem Shared.loadSeed_fatalCause (g : Shared) (x : Seed) : (g.loadSeed x).fatalCause = g.fatalCause := rfl
@[simp] theorem Shared.loadSeed_testMode (g : Shared) (x : Seed) : (g.loadSeed x).testMode = g.testMode := rfl
@[simp] theorem Shared.loadSeed_seed (g : Shared) (x : Seed) : (g.loadSeed x).seed = x := rfl
@[simp] theorem Shared.loadSeed_rngPos (g : Shared) (x : Seed) : (g.loadSeed x).rngPos = 0 := rfl
@[simp] theorem Shared.loadSeed_lastMs (g : Shared) (x : Seed) : (g.loadSeed x).lastMs = g.lastMs := rfl
@[simp] theorem Shared.loadSeed_lastSlot (g : Shared) (x : Seed) : (g.loadSeed x).lastSlot = g.lastSlot := rfl
@[simp] theorem Shared.loadSeed_lock (g : Shared) (x : Seed) : (g.loadSeed x).lock = g.lock := rfl
@[simp] theorem Shared.loadSeed_testClock (g : Shared) (x : Seed) : (g.loadSeed x).testClock = g.testClock := rfl
@[simp] theorem Shared.loadSeed_testSeed (g : Shared) (x : Seed) : (g.loadSeed x).testSeed = g.testSeed := rfl

@[simp] theorem Shared.recordPair_phase (g : Shared) (m : BitVec 48) (n : BitVec 12) : (g.recordPair m n).phase = g.phase := rfl
@[simp] theorem Shared.recordPair_fatalCause (g : Shared) (m : BitVec 48) (n : BitVec 12) : (g.recordPair m n).fatalCause = g.fatalCause := rfl
@[simp] theorem Shared.recordPair_testMode (g : Shared) (m : BitVec 48) (n : BitVec 12) : (g.recordPair m n).testMode = g.testMode := rfl
@[simp] theorem Shared.recordPair_seed (g : Shared) (m : BitVec 48) (n : BitVec 12) : (g.recordPair m n).seed = g.seed := rfl
@[simp] theorem Shared.recordPair_rngPos (g : Shared) (m : BitVec 48) (n : BitVec 12) : (g.recordPair m n).rngPos = g.rngPos := rfl
@[simp] theorem Shared.recordPair_lastMs (g : Shared) (m : BitVec 48) (n : BitVec 12) : (g.recordPair m n).lastMs = m := rfl
@[simp] theorem Shared.recordPair_lastSlot (g : Shared) (m : BitVec 48) (n : BitVec 12) : (g.recordPair m n).lastSlot = n := rfl
@[simp] theorem Shared.recordPair_lock (g : Shared) (m : BitVec 48) (n : BitVec 12) : (g.recordPair m n).lock = none := rfl
@[simp] theorem Shared.recordPair_testClock (g : Shared) (m : BitVec 48) (n : BitVec 12) : (g.recordPair m n).testClock = g.testClock := rfl
@[simp] theorem Shared.recordPair_testSeed (g : Shared) (m : BitVec 48) (n : BitVec 12) : (g.recordPair m n).testSeed = g.testSeed := rfl

/-! ### Port -/

@[simp] theorem Port.complete_seq (p : Port) (e : BitVec 4) : (p.complete e).seq = .idle := rfl
@[simp] theorem Port.complete_done (p : Port) (e : BitVec 4) : (p.complete e).done = true := rfl
@[simp] theorem Port.complete_ovr (p : Port) (e : BitVec 4) : (p.complete e).ovr = p.ovr := rfl
@[simp] theorem Port.complete_err (p : Port) (e : BitVec 4) : (p.complete e).err = e := rfl
@[simp] theorem Port.complete_id (p : Port) (e : BitVec 4) : (p.complete e).id = p.id := rfl
@[simp] theorem Port.complete_ibuf (p : Port) (e : BitVec 4) : (p.complete e).ibuf = p.ibuf := rfl
@[simp] theorem Port.complete_ilen (p : Port) (e : BitVec 4) : (p.complete e).ilen = p.ilen := rfl
@[simp] theorem Port.complete_obuf (p : Port) (e : BitVec 4) : (p.complete e).obuf = p.obuf := rfl
@[simp] theorem Port.complete_olen (p : Port) (e : BitVec 4) : (p.complete e).olen = p.olen := rfl
@[simp] theorem Port.complete_argNs (p : Port) (e : BitVec 4) : (p.complete e).argNs = p.argNs := rfl
@[simp] theorem Port.complete_argVer (p : Port) (e : BitVec 4) : (p.complete e).argVer = p.argVer := rfl
@[simp] theorem Port.complete_resVer (p : Port) (e : BitVec 4) : (p.complete e).resVer = p.resVer := rfl
@[simp] theorem Port.complete_resVar (p : Port) (e : BitVec 4) : (p.complete e).resVar = p.resVar := rfl
@[simp] theorem Port.complete_tsValid (p : Port) (e : BitVec 4) : (p.complete e).tsValid = p.tsValid := rfl
@[simp] theorem Port.complete_tsMs (p : Port) (e : BitVec 4) : (p.complete e).tsMs = p.tsMs := rfl
@[simp] theorem Port.complete_tsSubns (p : Port) (e : BitVec 4) : (p.complete e).tsSubns = p.tsSubns := rfl

@[simp] theorem Port.fail_seq (p : Port) (e : ParseError) : (p.fail e).seq = .idle := rfl
@[simp] theorem Port.fail_done (p : Port) (e : ParseError) : (p.fail e).done = true := rfl
@[simp] theorem Port.fail_ovr (p : Port) (e : ParseError) : (p.fail e).ovr = p.ovr := rfl
@[simp] theorem Port.fail_err (p : Port) (e : ParseError) : (p.fail e).err = e.code := rfl
@[simp] theorem Port.fail_id (p : Port) (e : ParseError) : (p.fail e).id = Ident.nil := rfl
@[simp] theorem Port.fail_ibuf (p : Port) (e : ParseError) : (p.fail e).ibuf = p.ibuf := rfl
@[simp] theorem Port.fail_ilen (p : Port) (e : ParseError) : (p.fail e).ilen = p.ilen := rfl
@[simp] theorem Port.fail_obuf (p : Port) (e : ParseError) : (p.fail e).obuf = p.obuf := rfl
@[simp] theorem Port.fail_olen (p : Port) (e : ParseError) : (p.fail e).olen = p.olen := rfl
@[simp] theorem Port.fail_argNs (p : Port) (e : ParseError) : (p.fail e).argNs = p.argNs := rfl
@[simp] theorem Port.fail_argVer (p : Port) (e : ParseError) : (p.fail e).argVer = p.argVer := rfl
@[simp] theorem Port.fail_resVer (p : Port) (e : ParseError) : (p.fail e).resVer = p.resVer := rfl
@[simp] theorem Port.fail_resVar (p : Port) (e : ParseError) : (p.fail e).resVar = p.resVar := rfl
@[simp] theorem Port.fail_tsValid (p : Port) (e : ParseError) : (p.fail e).tsValid = p.tsValid := rfl
@[simp] theorem Port.fail_tsMs (p : Port) (e : ParseError) : (p.fail e).tsMs = p.tsMs := rfl
@[simp] theorem Port.fail_tsSubns (p : Port) (e : ParseError) : (p.fail e).tsSubns = p.tsSubns := rfl

@[simp] theorem Port.setOutput_seq (p : Port) (f : List Byte) : (p.setOutput f).seq = p.seq := rfl
@[simp] theorem Port.setOutput_done (p : Port) (f : List Byte) : (p.setOutput f).done = p.done := rfl
@[simp] theorem Port.setOutput_ovr (p : Port) (f : List Byte) : (p.setOutput f).ovr = p.ovr := rfl
@[simp] theorem Port.setOutput_err (p : Port) (f : List Byte) : (p.setOutput f).err = p.err := rfl
@[simp] theorem Port.setOutput_id (p : Port) (f : List Byte) : (p.setOutput f).id = p.id := rfl
@[simp] theorem Port.setOutput_ibuf (p : Port) (f : List Byte) : (p.setOutput f).ibuf = p.ibuf := rfl
@[simp] theorem Port.setOutput_ilen (p : Port) (f : List Byte) : (p.setOutput f).ilen = p.ilen := rfl
@[simp] theorem Port.setOutput_obuf (p : Port) (f : List Byte) : (p.setOutput f).obuf = bytesPadded 64 f := rfl
@[simp] theorem Port.setOutput_olen (p : Port) (f : List Byte) : (p.setOutput f).olen = BitVec.ofNat 8 f.length := rfl
@[simp] theorem Port.setOutput_argNs (p : Port) (f : List Byte) : (p.setOutput f).argNs = p.argNs := rfl
@[simp] theorem Port.setOutput_argVer (p : Port) (f : List Byte) : (p.setOutput f).argVer = p.argVer := rfl
@[simp] theorem Port.setOutput_resVer (p : Port) (f : List Byte) : (p.setOutput f).resVer = p.resVer := rfl
@[simp] theorem Port.setOutput_resVar (p : Port) (f : List Byte) : (p.setOutput f).resVar = p.resVar := rfl
@[simp] theorem Port.setOutput_tsValid (p : Port) (f : List Byte) : (p.setOutput f).tsValid = p.tsValid := rfl
@[simp] theorem Port.setOutput_tsMs (p : Port) (f : List Byte) : (p.setOutput f).tsMs = p.tsMs := rfl
@[simp] theorem Port.setOutput_tsSubns (p : Port) (f : List Byte) : (p.setOutput f).tsSubns = p.tsSubns := rfl

@[simp] theorem Port.accept_seq (p : Port) (op : Byte) : (p.accept op).seq = acceptedSeq op := rfl
@[simp] theorem Port.accept_done (p : Port) (op : Byte) : (p.accept op).done = false := rfl
@[simp] theorem Port.accept_ovr (p : Port) (op : Byte) : (p.accept op).ovr = false := rfl
@[simp] theorem Port.accept_err (p : Port) (op : Byte) : (p.accept op).err = 0 := rfl
@[simp] theorem Port.accept_id (p : Port) (op : Byte) : (p.accept op).id = p.id := rfl
@[simp] theorem Port.accept_ibuf (p : Port) (op : Byte) : (p.accept op).ibuf = p.ibuf := rfl
@[simp] theorem Port.accept_ilen (p : Port) (op : Byte) : (p.accept op).ilen = p.ilen := rfl
@[simp] theorem Port.accept_obuf (p : Port) (op : Byte) : (p.accept op).obuf = p.obuf := rfl
@[simp] theorem Port.accept_olen (p : Port) (op : Byte) : (p.accept op).olen = p.olen := rfl
@[simp] theorem Port.accept_argNs (p : Port) (op : Byte) : (p.accept op).argNs = p.argNs := rfl
@[simp] theorem Port.accept_argVer (p : Port) (op : Byte) : (p.accept op).argVer = p.argVer := rfl
@[simp] theorem Port.accept_resVer (p : Port) (op : Byte) : (p.accept op).resVer = p.resVer := rfl
@[simp] theorem Port.accept_resVar (p : Port) (op : Byte) : (p.accept op).resVar = p.resVar := rfl
@[simp] theorem Port.accept_tsValid (p : Port) (op : Byte) : (p.accept op).tsValid = p.tsValid := rfl
@[simp] theorem Port.accept_tsMs (p : Port) (op : Byte) : (p.accept op).tsMs = p.tsMs := rfl
@[simp] theorem Port.accept_tsSubns (p : Port) (op : Byte) : (p.accept op).tsSubns = p.tsSubns := rfl

/-! ### The current port -/

theorem State.getElem?_cur {s : State} (h : s.env.cur < s.nPorts) : s.ports[s.env.cur]? = some s.port := by
  have h' : s.env.cur < s.ports.length := h
  simp [State.port, List.getD, List.getElem?_eq_getElem h']

theorem State.port_mem {s : State} (h : s.env.cur < s.nPorts) : s.port ∈ s.ports :=
  List.mem_of_getElem? (State.getElem?_cur h)

theorem State.port_setPort {s : State} (h : s.env.cur < s.nPorts) (p : Port) : (s.setPort p).port = p := by
  have h' : s.env.cur < s.ports.length := h
  simp [State.port, State.setPort, List.getD, h']

theorem State.setPort_ports_ne (s : State) (p : Port) {q : Nat} (h : q ≠ s.env.cur) :
    (s.setPort p).ports[q]? = s.ports[q]? := by
  simp [State.setPort, List.getElem?_set_ne (Ne.symm h)]

@[simp] theorem State.setPort_nPorts (s : State) (p : Port) : (s.setPort p).nPorts = s.nPorts := by
  simp [State.nPorts, State.setPort]

@[simp] theorem State.setShared_nPorts (s : State) (g : Shared) : (s.setShared g).nPorts = s.nPorts := rfl

@[simp] theorem State.setEnv_nPorts (s : State) (e : Env) : (s.setEnv e).nPorts = s.nPorts := rfl

@[simp] theorem State.setShared_port (s : State) (g : Shared) : (s.setShared g).port = s.port := rfl

@[simp] theorem State.afterFill_port (s : State) (n : Nat) : (s.afterFill n).port = s.port := rfl

@[simp] theorem State.afterFill_nPorts (s : State) (n : Nat) : (s.afterFill n).nPorts = s.nPorts := rfl

@[simp] theorem State.afterClock_port (s : State) : s.afterClock.port = s.port := rfl

@[simp] theorem State.afterClock_nPorts (s : State) : s.afterClock.nPorts = s.nPorts := rfl

@[simp] theorem State.withCurrent_nPorts (s : State) (p : Nat) : (s.withCurrent p).nPorts = s.nPorts := rfl

@[simp] theorem State.afterEvent_nPorts (s : State) : s.afterEvent.nPorts = s.nPorts := rfl

@[simp] theorem State.afterEvent_port (s : State) : s.afterEvent.port = s.port := rfl

/-! ### Now() changes the outside world's record only (40_service.md R177, R178) -/

@[simp] theorem State.afterNow_base (s : State) : s.afterNow.base = s.base := by
  unfold State.afterNow; split <;> rfl

@[simp] theorem State.afterNow_g (s : State) : s.afterNow.g = s.g := by
  unfold State.afterNow; split <;> rfl

@[simp] theorem State.afterNow_ports (s : State) : s.afterNow.ports = s.ports := by
  unfold State.afterNow; split <;> rfl

@[simp] theorem State.afterNow_cur (s : State) : s.afterNow.env.cur = s.env.cur := by
  unfold State.afterNow; split <;> rfl

@[simp] theorem State.afterNow_port (s : State) : s.afterNow.port = s.port := by
  unfold State.afterNow; split <;> rfl

@[simp] theorem State.afterNow_nPorts (s : State) : s.afterNow.nPorts = s.nPorts := by
  unfold State.afterNow; split <;> rfl

end Sys2Proof.Machine
end

