-- ==== Sys2Proof/Laws/Ops.lean ====
section
/-! SUPPORT. What each shared operation, each command and each step can do, said once: later proofs cite these
inversion lemmas instead of unfolding the meanings. -/

namespace Sys2Proof.Machine

/-! ### What a command may do to its port and to the shared state -/

/-- The end of a command leaves the operand registers and OVR; the output and the time fields are as before or hold a
new result. -/
structure KeepsOperands (q p : Port) : Prop where
  ovr : p.ovr = q.ovr
  ibuf : p.ibuf = q.ibuf
  ilen : p.ilen = q.ilen
  argNs : p.argNs = q.argNs
  argVer : p.argVer = q.argVer
  output : (p.obuf = q.obuf ∧ p.olen = q.olen) ∨
    ∃ f : List Byte, f.length ≤ 38 ∧ p.obuf = bytesPadded 64 f ∧ p.olen = BitVec.ofNat 8 f.length
  time : (p.tsValid = q.tsValid ∧ p.tsMs = q.tsMs ∧ p.tsSubns = q.tsSubns) ∨
    (p.tsValid = true ∧ p.tsSubns.toNat ≤ 999755) ∨ (p.tsValid = false ∧ p.tsMs = 0 ∧ p.tsSubns = 0)

/-- What the end of command `i` leaves of the shared state: only TEST_RESEED writes SEED, and only GEN_V7_STRICT in
STRICT_SPIN touches the lock and the last-issued pair, recording a later pair. -/
structure KeepsShared (i : Instr) (q : Port) (g g' : Shared) : Prop where
  phase : g'.phase = g.phase
  cause : g'.fatalCause = g.fatalCause
  testMode : g'.testMode = g.testMode
  testClock : g'.testClock = g.testClock
  testSeed : g'.testSeed = g.testSeed
  seed : i = .testReseed ∨ g'.seed = g.seed
  pair : (i ≠ .genV7Strict ∧ g'.lock = g.lock ∧ g'.lastMs = g.lastMs ∧ g'.lastSlot = g.lastSlot) ∨
    (i = .genV7Strict ∧ q.seq = .strictSpin ∧ g'.lock = none ∧
      laterPair g'.lastMs g'.lastSlot g.lastMs g.lastSlot = true)

/-- Everything one step of a command can do (10_state.md R40). -/
inductive CommandEffect (i : Instr) (s : State) : State → Prop
  /-- A strict step that waits or spins on changes no state of the block. -/
  | waits (e : Env) (hi : i = .genV7Strict) (hc : e.cur = s.env.cur) : CommandEffect i s (s.setEnv e)
  /-- A port takes the lock. -/
  | acquires (hi : i = .genV7Strict) (hs : s.port.seq = .strictAcq) (hl : s.g.lock = none) :
    CommandEffect i s ((s.setShared { s.g with lock := some s.env.cur }).setPort { s.port with seq := .strictSpin })
  /-- The command ends in `complete(p, err)`. -/
  | ends (e : Env) (g : Shared) (p : Port) (err : BitVec 4) (hc : e.cur = s.env.cur)
    (herr : err ∈ [0, 1, 2, 3, 4, 5, 8]) (hp : KeepsOperands s.port p) (hg : KeepsShared i s.port s.g g) :
    CommandEffect i s { s with g := g, ports := s.ports.set s.env.cur (p.complete err), env := e }
  /-- The command raises a fatal event. -/
  | fatal (e : Env) (c : FatalCause) (hc : e.cur = s.env.cur) :
    CommandEffect i s { s with g := s.g.raiseFatal c, env := e }

theorem KeepsOperands.refl (q : Port) : KeepsOperands q q :=
  ⟨rfl, rfl, rfl, rfl, rfl, .inl ⟨rfl, rfl⟩, .inl ⟨rfl, rfl, rfl⟩⟩

theorem KeepsOperands.withId (q : Port) (b : Ident) : KeepsOperands q { q with id := b } :=
  ⟨rfl, rfl, rfl, rfl, rfl, .inl ⟨rfl, rfl⟩, .inl ⟨rfl, rfl, rfl⟩⟩

theorem KeepsOperands.withOutput (q : Port) {f : List Byte} (h : f.length ≤ 38) : KeepsOperands q (q.setOutput f) :=
  ⟨rfl, rfl, rfl, rfl, rfl, .inr ⟨f, h, rfl, rfl⟩, .inl ⟨rfl, rfl, rfl⟩⟩

theorem KeepsShared.refl {i : Instr} (h : i ≠ .genV7Strict) (q : Port) (g : Shared) : KeepsShared i q g g :=
  ⟨rfl, rfl, rfl, rfl, rfl, .inr rfl, .inl ⟨h, rfl, rfl, rfl⟩⟩

/-! ### The shared operations -/

/-- A command that ends with port results `p` and no shared effect. -/
theorem completeWith_effect {i : Instr} (hi : i ≠ .genV7Strict) {s : State} {p : Port} (hp : KeepsOperands s.port p) :
    CommandEffect i s (s.completeWith p) :=
  .ends s.env s.g p 0 rfl (by decide) hp (.refl hi _ _)

theorem illegalCommand_effect {i : Instr} (hi : i ≠ .genV7Strict) (s : State) : CommandEffect i s s.illegalCommand :=
  .ends s.env s.g s.port 8 rfl (by decide) (.refl _) (.refl hi _ _)

/-- The end of a parse command: ID <- the value with ERR = 0, or ID <- nil with a code from 1 to 5. -/
theorem finishParse_effect {i : Instr} (hi : i ≠ .genV7Strict) (s : State) (r : Except ParseError Ident) :
    CommandEffect i s (s.finishParse r) := by
  cases r with
  | ok b => exact completeWith_effect hi (.withId _ b)
  | error e =>
    exact .ends s.env s.g { s.port with id := Ident.nil } e.code rfl (by cases e <;> decide) (.withId _ _)
      (.refl hi _ _)

theorem formatStep_effect {i : Instr} (hi : i ≠ .genV7Strict) (s : State) {f : List Byte} (h : f.length ≤ 38) :
    CommandEffect i s (s.formatStep f) := completeWith_effect hi (.withOutput _ h)

theorem shiftStep_effect {i : Instr} (hi : i ≠ .genV7Strict) (s : State) (k : Nat) :
    CommandEffect i s (s.shiftStep k) :=
  completeWith_effect hi ⟨rfl, rfl, rfl, rfl, rfl, .inr ⟨_, by simp, rfl, rfl⟩, .inl ⟨rfl, rfl, rfl⟩⟩

theorem unshiftStep_effect {i : Instr} (hi : i ≠ .genV7Strict) (s : State) (k : Nat) :
    CommandEffect i s (s.unshiftStep k) := completeWith_effect hi (.withId _ _)

theorem setTime_keeps (q : Port) : KeepsOperands q q.setTime := by
  unfold Port.setTime
  split
  · refine ⟨rfl, rfl, rfl, rfl, rfl, .inl ⟨rfl, rfl⟩, .inr (.inl ⟨rfl, ?_⟩)⟩
    exact (BitVec.toNat_ofNat _ _ ▸ Nat.mod_le _ _).trans (slotNanoseconds_le (slotOf q.id).isLt)
  · exact ⟨rfl, rfl, rfl, rfl, rfl, .inl ⟨rfl, rfl⟩, .inr (.inr ⟨rfl, rfl, rfl⟩)⟩

/-- The completing part of a v7 command does not read the record of the outside world beyond the current port. -/
theorem completeV7_setEnv (s : State) {e : Env} (hc : e.cur = s.env.cur) (ns : BitVec 64) :
    (s.setEnv e).completeV7 ns =
      { s with
        g := { s.g with rngPos := s.g.rngPos + BitVec.ofNat 64 8 }
        ports := s.ports.set s.env.cur (Port.complete { s.port with id := v7OfTick ns (s.fillBytes 8) } 0)
        env := e } := by
  have hport : (s.setEnv e).port = s.port := by simp [State.port, hc]
  rw [← hport, ← hc]
  rfl

/-- GEN_V7 and GEN_V7_AT: Fatal, or completion with Fill(8). `e` is the record after the clock sample. -/
theorem generateV7_effect {i : Instr} (hi : i ≠ .genV7Strict) (s : State) (e : Env) (hc : e.cur = s.env.cur)
    (ns : BitVec 64) : CommandEffect i s ((s.setEnv e).generateV7 ns) := by
  unfold State.generateV7
  split
  · exact .fatal e .preEpochTime hc
  · rw [completeV7_setEnv s hc]
    exact .ends e { s.g with rngPos := s.g.rngPos + BitVec.ofNat 64 8 } { s.port with id := v7OfTick ns (s.fillBytes 8) } 0
      hc (by decide) (.withId _ _) ⟨rfl, rfl, rfl, rfl, rfl, .inr rfl, .inl ⟨hi, rfl, rfl, rfl⟩⟩

theorem afterNow_eq (s : State) : ∃ e : Env, e.cur = s.env.cur ∧ s.afterNow = s.setEnv e := by
  unfold State.afterNow
  split
  · exact ⟨s.env, rfl, rfl⟩
  · exact ⟨s.afterClock.env, rfl, rfl⟩

/-- The strict spin step: Fatal, completion with a later pair, or no change of the block. -/
theorem strictSpinOn_effect (s : State) (e : Env) (hc : e.cur = s.env.cur) (hs : s.port.seq = .strictSpin)
    (ns : BitVec 64) : CommandEffect .genV7Strict s ((s.setEnv e).strictSpinOn ns) := by
  unfold State.strictSpinOn
  simp only []
  split
  · exact .fatal e .preEpochTime hc
  · split
    · rename_i hl
      exact completeV7_setEnv (s.setShared (s.g.recordPair (BitVec.ofNat 48 (splitMs ns.toNat))
        (BitVec.ofNat 12 (splitSlot ns.toNat)))) hc ns ▸
        .ends e { s.g.recordPair (BitVec.ofNat 48 (splitMs ns.toNat)) (BitVec.ofNat 12 (splitSlot ns.toNat)) with
          rngPos := s.g.rngPos + BitVec.ofNat 64 8 }
        { s.port with id := v7OfTick ns (s.fillBytes 8) } 0 hc (by decide) (.withId _ _)
        ⟨rfl, rfl, rfl, rfl, rfl, .inr rfl, .inr ⟨rfl, hs, rfl, hl⟩⟩
    · exact .waits e rfl hc

/-! ### Every command completes its step, and how -/

/-- Whatever the command and the state, exec answers a next state, and it is one of the effects above. -/
theorem exec_effect (i : Instr) (s : State) : ∃ t, exec i s = .next t ∧ CommandEffect i s t := by
  cases i
  case nop => exact ⟨_, rfl, completeWith_effect (by decide) (.refl _)⟩
  case genV4 =>
    exact ⟨_, rfl, .ends s.env { s.g with rngPos := s.g.rngPos + BitVec.ofNat 64 16 }
      { s.port with id := v4Ident (s.fillBytes 16) } 0 rfl (by decide) (.withId _ _)
      ⟨rfl, rfl, rfl, rfl, rfl, .inr rfl, .inl ⟨by decide, rfl, rfl, rfl⟩⟩⟩
  case genV7 =>
    obtain ⟨e, hc, he⟩ := afterNow_eq s
    exact ⟨_, rfl, he ▸ generateV7_effect (by decide) s e hc _⟩
  case genV7At => exact ⟨_, rfl, generateV7_effect (by decide) s s.env rfl _⟩
  case genV7Strict =>
    refine ⟨_, rfl, ?_⟩
    split
    · rename_i hs
      unfold State.strictAcquire
      split
      · rename_i hl
        exact .acquires rfl hs hl
      · exact .waits s.env rfl rfl
    · rename_i hs
      obtain ⟨e, hc, he⟩ := afterNow_eq s
      exact he ▸ strictSpinOn_effect s e hc hs _
    · exact .waits s.env rfl rfl
    · exact .waits s.env rfl rfl
  case getVersion =>
    exact ⟨_, rfl, completeWith_effect (by decide) ⟨rfl, rfl, rfl, rfl, rfl, .inl ⟨rfl, rfl⟩, .inl ⟨rfl, rfl, rfl⟩⟩⟩
  case getVariant =>
    exact ⟨_, rfl, completeWith_effect (by decide) ⟨rfl, rfl, rfl, rfl, rfl, .inl ⟨rfl, rfl⟩, .inl ⟨rfl, rfl, rfl⟩⟩⟩
  case getTime => exact ⟨_, rfl, completeWith_effect (by decide) (setTime_keeps _)⟩
  case shift => exact ⟨_, rfl, shiftStep_effect (by decide) s 0⟩
  case shiftB32 => exact ⟨_, rfl, shiftStep_effect (by decide) s 1⟩
  case shiftB64 => exact ⟨_, rfl, shiftStep_effect (by decide) s 2⟩
  case unshift => exact ⟨_, rfl, unshiftStep_effect (by decide) s 0⟩
  case unshiftB32 => exact ⟨_, rfl, unshiftStep_effect (by decide) s 1⟩
  case unshiftB64 => exact ⟨_, rfl, unshiftStep_effect (by decide) s 2⟩
  case parse => exact ⟨_, rfl, finishParse_effect (by decide) s _⟩
  case parseShort => exact ⟨_, rfl, finishParse_effect (by decide) s _⟩
  case fromBytes => exact ⟨_, rfl, finishParse_effect (by decide) s _⟩
  case fmtCanonical => exact ⟨_, rfl, formatStep_effect (by decide) s (by simp)⟩
  case fmtC32 => exact ⟨_, rfl, formatStep_effect (by decide) s (by simp)⟩
  case fmtC64 => exact ⟨_, rfl, formatStep_effect (by decide) s (by simp)⟩
  case fmtShort => exact ⟨_, rfl, formatStep_effect (by decide) s (by simp)⟩
  case fmtRaw => exact ⟨_, rfl, formatStep_effect (by decide) s (by simp)⟩
  case fmtJson => exact ⟨_, rfl, formatStep_effect (by decide) s (by simp)⟩
  case testReseed =>
    refine ⟨_, rfl, ?_⟩
    split
    · exact .ends s.env (s.g.loadSeed s.g.testSeed) s.port 0 rfl (by decide) (.refl _)
        ⟨rfl, rfl, rfl, rfl, rfl, .inl rfl, .inl ⟨by decide, rfl, rfl, rfl⟩⟩
    · exact illegalCommand_effect (by decide) s

/-! ### Steps of the agents -/

/-- What a port's step can do: nothing when it has none, else one step of the command in progress, or IllegalCommand for
an opcode outside the map. A strict sequencer runs GEN_V7_STRICT. -/
theorem portStep_cases {s t : State} {p : Nat} (h : s.portStep p = .next t) :
    (s.portEnabled p = false ∧ t = s) ∨
    (s.portEnabled p = true ∧ ∃ op, fetchOpcode (s.withCurrent p).port.seq = some op ∧
      ((∃ i, decodeOpcode op = .ok i ∧ CommandEffect i (s.withCurrent p) t ∧ exec i (s.withCurrent p) = .next t) ∨
       (∃ x, decodeOpcode op = .error x ∧ t = (s.withCurrent p).illegalCommand))) := by
  unfold State.portStep at h
  split at h
  · rename_i hen
    refine .inr ⟨hen, ?_⟩
    split at h
    · rename_i hf
      simp only [State.portEnabled, Bool.and_eq_true, bne_iff_ne, ne_eq] at hen
      have hidle : (s.withCurrent p).port.seq ≠ .idle := hen.1.2
      cases hseq : (s.withCurrent p).port.seq <;> simp_all [fetchOpcode]
    · rename_i op hf
      refine ⟨op, hf, ?_⟩
      unfold State.runOpcode at h
      split at h
      · rename_i i hd
        obtain ⟨u, hu, heff⟩ := exec_effect i (s.withCurrent p)
        obtain rfl : u = t := by rw [hu] at h; exact Host.Outcome.next.inj h
        exact .inl ⟨i, hd, heff, hu⟩
      · rename_i x hd
        exact .inr ⟨x, hd, (Host.Outcome.next.inj h).symm⟩
  · rename_i hen
    exact .inl ⟨by simpa using hen, (Host.Outcome.next.inj h).symm⟩

/-- An enabled port exists, is not IDLE, and the block is READY. -/
theorem portEnabled_iff (s : State) (p : Nat) :
    s.portEnabled p = true ↔ s.g.phase = .ready ∧ (s.withCurrent p).port.seq ≠ .idle ∧ p < s.nPorts := by
  have hp : (s.withCurrent p).port = s.ports.getD p Port.reset := rfl
  simp [State.portEnabled, hp, and_assoc]

/-- What a bus write can do: nothing but an answer, or a write of one register. -/
theorem busWrite_cases {s t : State} {a n : Nat} {v : Word} (h : s.busWrite a n v = .next t) :
    (t = s.respond .error) ∨ ∃ off, s.offsetOf a = some off ∧ accessOk off n = true ∧ t = (s.writeReg off v).respond .done := by
  unfold State.busWrite at h
  split at h
  · cases h
  · rename_i off ho
    obtain rfl := (Host.Outcome.next.inj h).symm
    by_cases ha : accessOk off n = true
    · exact .inr ⟨off, ho, ha, by simp [ha]⟩
    · exact .inl (by simp [ha])

/-- The port with its five operand registers replaced: all that an operand write can change (20_memory.md R93). -/
def Port.withOperands (q : Port) (id : Ident) (ibuf : Buffer) (ilen : BitVec 8) (argNs : BitVec 64) (argVer : BitVec 4) :
    Port :=
  { q with id := id, ibuf := ibuf, ilen := ilen, argNs := argNs, argVer := argVer }

/-- What a write to a port's register can do: accept a command, set OVR, replace operands of an IDLE port, or nothing. -/
theorem Port.write_cases (q : Port) (phase : Phase) (v : Word) (r : PortReg) :
    (r = .cmd ∧ phase = .ready ∧ q.seq = .idle ∧ q.write phase v r = q.accept (v.extractLsb' 0 8)) ∨
    (r = .cmd ∧ ¬ (phase = .ready ∧ q.seq = .idle) ∧ q.write phase v r = { q with ovr := true }) ∨
    (r ≠ .cmd ∧ q.seq = .idle ∧ ∃ id ibuf ilen argNs argVer, q.write phase v r = q.withOperands id ibuf ilen argNs argVer) ∨
    (r ≠ .cmd ∧ q.write phase v r = q) := by
  by_cases hr : r = .cmd
  · by_cases h : phase = .ready ∧ q.seq = .idle
    · exact .inl ⟨hr, h.1, h.2, by simp [Port.write, Port.writeCmd, hr, h]⟩
    · exact .inr (.inl ⟨hr, h, by simp [Port.write, Port.writeCmd, hr, h]⟩)
  · by_cases h : q.seq = .idle
    · refine .inr (.inr (.inl ⟨hr, h, (q.writeOperand v r).id, (q.writeOperand v r).ibuf, (q.writeOperand v r).ilen,
        (q.writeOperand v r).argNs, (q.writeOperand v r).argVer, ?_⟩))
      simp only [Port.write, hr, h, if_true, if_false]
      cases r <;> rfl
    · exact .inr (.inr (.inr ⟨hr, by simp [Port.write, hr, h]⟩))

/-- What a write to a register can do to the machine: the test registers in test mode, one port, or nothing. -/
theorem writeReg_cases (s : State) (off : Nat) (v : Word) :
    (s.g.testMode = true ∧ ∃ clock seed, s.writeReg off v = s.setShared { s.g with testClock := clock, testSeed := seed }) ∨
    (∃ p r, s.writeReg off v = { s with ports := s.ports.modify p fun q => q.write s.g.phase v r }) ∨
    s.writeReg off v = s := by
  unfold State.writeReg
  cases targetOf off with
  | reserved => exact .inr (.inr rfl)
  | port p r => exact .inr (.inl ⟨p, r, rfl⟩)
  | global r =>
    by_cases h : s.g.testMode = true
    · refine .inl ⟨h, (writeGlobal s.g v r).testClock, (writeGlobal s.g v r).testSeed, ?_⟩
      cases r <;> simp only [writeTarget, writeGlobal, if_pos h]
    · refine .inr (.inr ?_)
      cases r <;> simp [writeTarget, writeGlobal, State.setShared, h]

/-- A bus read only leaves an answer. -/
theorem busRead_cases {s t : State} {a n : Nat} (h : s.busRead a n = .next t) : ∃ r, t = s.respond r := by
  unfold State.busRead at h
  split at h
  · cases h
  · exact ⟨_, (Host.Outcome.next.inj h).symm⟩

/-- What the seeding step can do. -/
theorem seedingStep_cases (s : State) :
    s.seedingStep = s ∨ (s.g.phase = .seeding ∧ ∃ e : Env, e.cur = s.env.cur ∧
      (s.seedingStep = (s.setEnv e).raiseFatal .entropyInitFailure ∨
        ∃ seed, s.seedingStep = (s.setEnv e).seedWith seed)) := by
  unfold State.seedingStep
  cases hp : s.g.phase
  · refine .inr ⟨rfl, ?_⟩
    simp only []
    unfold State.seedNow
    split
    · exact ⟨s.env, rfl, .inr ⟨_, rfl⟩⟩
    · refine ⟨s.afterEntropy.env, rfl, ?_⟩
      split
      · exact .inl rfl
      · exact .inr ⟨_, rfl⟩
  · exact .inl rfl
  · exact .inl rfl

/-- The part of the outside world's record that counts the draws of CLOCK. -/
def clockRecord (e : Env) : List (BitVec 64) × Nat := (e.clockIn, e.clockNo)

theorem afterNow_clock (s : State) :
    clockRecord s.afterNow.env = if s.g.testMode then clockRecord s.env else (s.env.clockIn.tail, s.env.clockNo + 1) := by
  unfold State.afterNow
  split <;> rfl

theorem finishParse_env (s : State) (r : Except ParseError Ident) : (s.finishParse r).env = s.env := by cases r <;> rfl

theorem generateV7_env (s : State) (ns : BitVec 64) : (s.generateV7 ns).env = s.env := by
  unfold State.generateV7
  split <;> rfl

theorem strictSpinOn_env (s : State) (ns : BitVec 64) : (s.strictSpinOn ns).env = s.env := by
  unfold State.strictSpinOn
  dsimp only
  split
  · rfl
  · split <;> rfl

/-- Only the perform step of GEN_V7 and the strict spin step move the record of clock draws (40_service.md R177). -/
theorem exec_clock {i : Instr} {s t : State} (h : exec i s = .next t) :
    clockRecord t.env =
      if i = .genV7 ∨ (i = .genV7Strict ∧ s.port.seq = .strictSpin) then clockRecord s.afterNow.env else clockRecord s.env := by
  cases i <;> obtain rfl := (Host.Outcome.next.inj h).symm
  case genV7 => simp [generateV7_env]
  case genV7Strict =>
    cases hs : s.port.seq
    case strictSpin => simp [strictSpinOn_env]
    case strictAcq => simp only [State.strictAcquire]; split <;> simp
    all_goals simp
  case genV7At => simp [generateV7_env]
  case parse => simp [finishParse_env]
  case parseShort => simp [finishParse_env]
  case fromBytes => simp [finishParse_env]
  case testReseed => split <;> rfl
  case nop => simp
  case genV4 => simp
  case getVersion => simp
  case getVariant => simp
  case getTime => simp
  all_goals rfl

/-- The command that a fetched opcode names calls `Now()` exactly when `callsNow` says so of the sequencer's state. -/
theorem callsNow_iff {seq : Seq} {op : Byte} {i : Instr} (hf : fetchOpcode seq = some op) (hd : decodeOpcode op = .ok i) :
    callsNow seq = true ↔ i = .genV7 ∨ (i = .genV7Strict ∧ seq = .strictSpin) := by
  cases seq with
  | idle => cases hf
  | busy o =>
    obtain rfl := Option.some.inj hf
    have h : ∀ o : Byte, decodeOpcode o = .ok i → (o = 0x02 ↔ i = .genV7) := by cases i <;> decide
    have := h o hd
    simpa [callsNow] using this
  | strictAcq => obtain rfl := Option.some.inj hf; obtain rfl := (Except.ok.inj hd).symm; decide
  | strictSpin => obtain rfl := Option.some.inj hf; obtain rfl := (Except.ok.inj hd).symm; decide

/-- A step draws CLOCK once where it calls `Now()` in production, and never otherwise (40_service.md R177, R178). -/
theorem takeEvent_clock {s t : State} {e : Event} (h : s.takeEvent e = .next t) :
    clockRecord t.env =
      if (s.nowInStep e).isSome ∧ s.g.testMode = false then (s.env.clockIn.tail, s.env.clockNo + 1)
      else clockRecord s.env := by
  cases e with
  | read a n => obtain ⟨r, rfl⟩ := busRead_cases h; rfl
  | write a n v =>
    rcases busWrite_cases h with rfl | ⟨o, _, _, rfl⟩
    · rfl
    · rcases writeReg_cases s o v with ⟨_, c, d, h'⟩ | ⟨k, r, h'⟩ | h' <;> rw [h'] <;> rfl
  | portStep p =>
    rcases portStep_cases h with ⟨hen, rfl⟩ | ⟨hen, op, hf, ⟨i, hd, _, hx⟩ | ⟨x, hd, rfl⟩⟩
    · simp [State.nowInStep, hen]
    · have hseq : (s.withCurrent p).port.seq = (s.ports.getD p Port.reset).seq := rfl
      rw [exec_clock hx, afterNow_clock]
      have hc := callsNow_iff hf hd
      rw [hseq] at hc
      rw [hseq]
      simp only [State.nowInStep, hen, Bool.true_and, ← hc, State.withCurrent_g]
      by_cases h1 : callsNow (s.ports.getD p Port.reset).seq = true <;> by_cases h2 : s.g.testMode = true <;>
        simp only [h1, h2] <;> rfl
    · have hc : callsNow (s.ports.getD p Port.reset).seq = false := by
        have hseq : (s.withCurrent p).port.seq = (s.ports.getD p Port.reset).seq := rfl
        rw [hseq] at hf
        cases hs : (s.ports.getD p Port.reset).seq with
        | idle => rfl
        | strictAcq => rfl
        | busy o =>
          rw [hs] at hf
          obtain rfl := Option.some.inj hf
          have h2 : o ≠ 0x02 := by rintro rfl; cases hd
          simpa [callsNow] using h2
        | strictSpin =>
          rw [hs] at hf
          obtain rfl := Option.some.inj hf
          cases hd
      simp only [State.nowInStep, hc, Bool.and_false, Bool.false_eq_true, if_false, Option.isSome_none, false_and]
      rfl
  | seedStep =>
    obtain rfl := (Host.Outcome.next.inj h).symm
    simp only [State.nowInStep]
    unfold State.seedingStep State.seedNow
    split
    · split
      · rfl
      · split <;> rfl
    · rfl
    · rfl
  | reset b => obtain rfl := (Host.Outcome.next.inj h).symm; rfl

/-- Every step of the machine is a step of an execution. -/
theorem step_takes {s t : State} (h : step s = .next t) : Takes s s.nextEvent t := ⟨_, _, h⟩

end Sys2Proof.Machine
end

