-- ==== Sys2Proof/Laws/PerInstr.lean ====
section
/-! SUPPORT. Facts about every command as syntax, one lemma a constructor: its opcode is in none of the illegal ranges of
30_encoding.md R113, and its command word has the ignored bits 0. -/

namespace Sys2Proof.Laws.LegalOpcode

/-- The command's opcode is legal (R113), and the encoder's word holds nothing else (R110). -/
def Statement (i : Instr) : Prop := illegalRange (opcodeOf i) = false ∧ (encode i).extractLsb' 8 24 = 0

theorem nop : Statement .nop := by unfold Statement; decide

theorem genV4 : Statement .genV4 := by unfold Statement; decide

theorem genV7 : Statement .genV7 := by unfold Statement; decide

theorem genV7At : Statement .genV7At := by unfold Statement; decide

theorem genV7Strict : Statement .genV7Strict := by unfold Statement; decide

theorem getVersion : Statement .getVersion := by unfold Statement; decide

theorem getVariant : Statement .getVariant := by unfold Statement; decide

theorem getTime : Statement .getTime := by unfold Statement; decide

theorem shift : Statement .shift := by unfold Statement; decide

theorem shiftB32 : Statement .shiftB32 := by unfold Statement; decide

theorem shiftB64 : Statement .shiftB64 := by unfold Statement; decide

theorem unshift : Statement .unshift := by unfold Statement; decide

theorem unshiftB32 : Statement .unshiftB32 := by unfold Statement; decide

theorem unshiftB64 : Statement .unshiftB64 := by unfold Statement; decide

theorem parse : Statement .parse := by unfold Statement; decide

theorem parseShort : Statement .parseShort := by unfold Statement; decide

theorem fromBytes : Statement .fromBytes := by unfold Statement; decide

theorem fmtCanonical : Statement .fmtCanonical := by unfold Statement; decide

theorem fmtC32 : Statement .fmtC32 := by unfold Statement; decide

theorem fmtC64 : Statement .fmtC64 := by unfold Statement; decide

theorem fmtShort : Statement .fmtShort := by unfold Statement; decide

theorem fmtRaw : Statement .fmtRaw := by unfold Statement; decide

theorem fmtJson : Statement .fmtJson := by unfold Statement; decide

theorem testReseed : Statement .testReseed := by unfold Statement; decide

end Sys2Proof.Laws.LegalOpcode
end

