-- ==== Sys2Proof/Tests/Slice0.lean ====
section
/-! SUPPORT. Small tests. Expected values come from the vectors of spec/95_test_vectors.md (named in each comment), from
the spec's encoding tables, or are witnesses that the hypotheses of an obligation can be met. -/

namespace Sys2Proof.Tests

open Sys2Proof Sys2Proof.Machine

/-! ### Helpers -/

/-- A READY machine with BASE = 0x4000 and the given ports; port 0 is current. -/
def machine (testMode : Bool) (ports : List Port) : State where
  base := 0x4000
  g := { Shared.reset testMode (Vector.replicate 32 0) with phase := .ready }
  ports := ports
  env := Env.initial

/-- A port whose input string is `l`. -/
def portWith (l : List Byte) : Port :=
  { Port.reset with ibuf := bytesPadded 64 l, ilen := BitVec.ofNat 8 l.length }

/-- A port whose ID is `b`. -/
def portHolding (b : Ident) : Port := { Port.reset with id := b }

/-- The state of a next outcome; `s` itself for another one. -/
def nextOr (s : State) : Host.Outcome State Fault Refusal → State
  | .next t => t
  | .fault _ => s
  | .refused _ => s

/-- The state after one command of port 0 in test mode. -/
def after (i : Instr) (q : Port) : State := nextOr (machine true []) (exec i (machine true [q]))

/-- ERR and ID of port 0 after one command. -/
def answer (i : Instr) (q : Port) : BitVec 4 × Ident := ((after i q).port.err, (after i q).port.id)

/-- The output string of port 0 after one command. -/
def output (i : Instr) (b : Ident) : List Byte :=
  (after i (portHolding b)).port.obuf.toList.take (after i (portHolding b)).port.olen.toNat

/-- EX = 01867b2c-a0dd-459c-98d7-89e545538d6c. -/
def ex : Ident := #v[0x01, 0x86, 0x7b, 0x2c, 0xa0, 0xdd, 0x45, 0x9c, 0x98, 0xd7, 0x89, 0xe5, 0x45, 0x53, 0x8d, 0x6c]

/-- EX with version 5. -/
def ex5 : Ident := #v[0x01, 0x86, 0x7b, 0x2c, 0xa0, 0xdd, 0x55, 0x9c, 0x98, 0xd7, 0x89, 0xe5, 0x45, 0x53, 0x8d, 0x6c]

/-- 00 01 02 ... 0f. -/
def counting : Ident := #v[0, 1, 2, 3, 4, 5, 6, 7, 8, 9, 10, 11, 12, 13, 14, 15]

/-! ### WellFormed refuses each ill-formed term -/

theorem test_wellFormed_accepts : ex.wellFormed = true ∧ Ident.nil.wellFormed = true ∧ Ident.max.wellFormed = true := by
  decide

theorem test_wellFormed_refuses_version : ex5.wellFormed = false := by decide

theorem test_wellFormed_refuses_variant : Ident.wellFormed (ex.set 8 0xC8) = false := by decide

theorem test_wellFormed_refuses_near_nil : Ident.wellFormed (Ident.nil.set 15 1) = false := by decide

theorem test_wellFormed_refuses_near_max : Ident.wellFormed (Ident.max.set 15 0xFE) = false := by decide

theorem test_reseed_illegal_in_production :
    Instr.legalIn false .testReseed = false ∧ Instr.legalIn true .testReseed = true ∧ Instr.legalIn false .nop = true ∧
      Instr.wellFormed .testReseed = true := by decide

/-! ### Decoding: each row's word written out from the opcode map (30_encoding.md R112) -/

theorem test_decode_control :
    decodeWord 0x00000000 = .ok .nop ∧ decodeWord 0x0000007F = .ok .testReseed := by decide

theorem test_decode_generate :
    decodeWord 0x00000001 = .ok .genV4 ∧ decodeWord 0x00000002 = .ok .genV7 ∧ decodeWord 0x00000003 = .ok .genV7At ∧
      decodeWord 0x00000004 = .ok .genV7Strict := by decide

theorem test_decode_fields :
    decodeWord 0x00000008 = .ok .getVersion ∧ decodeWord 0x00000009 = .ok .getVariant ∧
      decodeWord 0x0000000A = .ok .getTime := by decide

theorem test_decode_repack :
    decodeWord 0x00000010 = .ok .shift ∧ decodeWord 0x00000011 = .ok .shiftB32 ∧ decodeWord 0x00000012 = .ok .shiftB64 ∧
      decodeWord 0x00000014 = .ok .unshift ∧ decodeWord 0x00000015 = .ok .unshiftB32 ∧
      decodeWord 0x00000016 = .ok .unshiftB64 := by decide

theorem test_decode_parse :
    decodeWord 0x00000020 = .ok .parse ∧ decodeWord 0x00000021 = .ok .parseShort ∧
      decodeWord 0x00000022 = .ok .fromBytes := by decide

theorem test_decode_format :
    decodeWord 0x00000030 = .ok .fmtCanonical ∧ decodeWord 0x00000031 = .ok .fmtC32 ∧
      decodeWord 0x00000032 = .ok .fmtC64 ∧ decodeWord 0x00000033 = .ok .fmtShort ∧ decodeWord 0x00000034 = .ok .fmtRaw ∧
      decodeWord 0x00000035 = .ok .fmtJson := by decide

/-- CTL6: bits [31:8] are ignored. -/
theorem test_decode_ignores_high_bits : decodeWord 0xFFFFFF00 = .ok .nop := by decide

/-- CTL5, CTL7, and the neighbours of each group (R113). -/
theorem test_decode_refuses :
    ∀ op ∈ ([0x05, 0x07, 0x0B, 0x0F, 0x13, 0x17, 0x1F, 0x23, 0x2F, 0x36, 0x7E, 0x80, 0xFF] : List Byte),
      decodeOpcode op = .error (.illegalOpcode op) := by decide

theorem test_decodeTableWord : decodeTableWord 8 0x35 = some .fmtJson ∧ decodeTableWord 8 0x36 = none := by decide

/-! ### Control, acceptance, seeding (T-CTL) -/

/-- CTL4: STATUS 0x132 becomes 0x102. -/
theorem test_nop :
    statusWord (machine true []).g (after .nop { Port.reset with err := 3, done := true }).port = 0x102 := by decide

/-- CTL9. -/
theorem test_testReseed :
    let s := machine true [Port.reset]
    let t := nextOr s (exec .testReseed { s with g := { s.g with rngPos := 24, testSeed := Vector.replicate 32 7 } })
    t.g.seed = Vector.replicate 32 7 ∧ t.g.rngPos = 0 ∧ t.port.err = 0 := by decide

/-- CTL8. -/
theorem test_testReseed_production :
    let s := machine false [portHolding ex]
    let t := nextOr s (exec .testReseed { s with g := { s.g with rngPos := 24 } })
    t.g.rngPos = 24 ∧ t.port.err = 8 ∧ t.port.id = ex := by decide

/-- CTL1: a CMD write before the seeding step is dropped with OVR. -/
theorem test_cmd_before_seeding :
    let s := { machine false [Port.reset] with g := Shared.reset false (Vector.replicate 32 0) }
    let t := nextOr s (s.busWrite 0x4100 4 0)
    statusWord t.g t.port = 0x4 ∧ gstatusWord t.g t.nPorts = 0x10000 := by decide

/-- CTL13: a short entropy draw halts the block. -/
theorem test_seeding_short :
    let s := { machine false [Port.reset] with
      g := Shared.reset false (Vector.replicate 32 0), env := { Env.initial with entropyIn := [none] } }
    gstatusWord s.seedingStep.g 1 = 0x10062 ∧ statusWord s.seedingStep.g Port.reset = 0x200 := by decide

/-- CTL10, CTL15, CTL16: test registers in production, a misaligned access, an absent port. -/
theorem test_bus_reads :
    let s := machine false [Port.reset]
    (nextOr s (s.busRead 0x4010 4)).env.resp = .data 0 ∧ (nextOr s (s.busRead 0x4102 4)).env.resp = .error ∧
      (nextOr s (s.busRead 0x4204 4)).env.resp = .data 0 := by decide

/-- The bus words of EX (R118). -/
theorem test_id_words :
    (List.range 4).map (laneWord ex) = [0x2C7B8601, 0x9C45DDA0, 0xE589D798, 0x6C8D5345] := by decide

/-! ### Generators (T-GEN) -/

/-- GEN1. -/
theorem test_genV4_bytes :
    v4Ident counting = #v[0, 1, 2, 3, 4, 5, 0x46, 7, 0x88, 9, 10, 11, 12, 13, 14, 15] := by decide

/-- Fill(16) advances the position by 16 (R175). -/
theorem test_genV4 : (after .genV4 Port.reset).g.rngPos = 16 ∧ (after .genV4 Port.reset).port.err = 0 := ⟨rfl, rfl⟩

/-- GEN11 and GEN12: the largest tick, and the variant bits over a random byte. -/
theorem test_genV7At_bytes :
    v7OfTick 0x7FFFFFFFFFFFFFFF (Vector.replicate 8 0) =
        #v[0x08, 0x63, 0x7b, 0xd0, 0x5a, 0xf6, 0x7c, 0x69, 0x80, 0, 0, 0, 0, 0, 0, 0] ∧
      v7OfTick 0 #v[0xc1, 2, 2, 2, 2, 2, 2, 2] = #v[0, 0, 0, 0, 0, 0, 0x70, 0, 0x81, 2, 2, 2, 2, 2, 2, 2] := by decide

/-- GEN14: a negative tick is fatal and nothing else changes. -/
theorem test_genV7At_negative :
    let t := after .genV7At { portHolding ex with argNs := 0xFFFFFFFFFFFFFFFF }
    t.g.phase = .fatal ∧ t.g.fatalCause = 7 ∧ t.g.rngPos = 0 ∧ t.port.id = ex := by decide

/-- GEN15: the time fields come from TEST_CLOCK in test mode. -/
theorem test_genV7 :
    let s := machine true [Port.reset]
    let t := nextOr s (exec .genV7 { s with g := { s.g with testClock := 1700000000123456789 } })
    msOf t.port.id = 0x018BCFE5687B ∧ slotOf t.port.id = 0x74F ∧ t.g.rngPos = 8 := by decide

/-- STR3: from LAST = (0, 0) the first slot that completes is slot 1, at tick 245. -/
theorem test_genV7Strict :
    let s := machine true [{ Port.reset with seq := .strictSpin }]
    let t := nextOr s (exec .genV7Strict { s with g := { s.g with testClock := 245, lock := some 0 } })
    t.g.lastMs = 0 ∧ t.g.lastSlot = 1 ∧ t.g.lock = none ∧ t.port.seq = .idle ∧ t.port.done = true := by decide

/-- STR2: at tick 244 the port spins on. -/
theorem test_genV7Strict_spins :
    let s := machine true [{ Port.reset with seq := .strictSpin }]
    let s' := { s with g := { s.g with testClock := 244, lock := some 0 } }
    nextOr Machine.State.reset (exec .genV7Strict s') = s' := by decide

/-! ### Accessors (T-FLD) -/

/-- FLD4. -/
theorem test_getVersion : (after .getVersion (portHolding ex5)).port.resVer = 5 := by decide

/-- FLD11: b[8] = 0xEF. -/
theorem test_getVariant : (after .getVariant (portHolding (ex.set 8 0xEF))).port.resVar = 3 := by decide

/-- FLD9: no variant check; slot 4095. -/
theorem test_getTime :
    let t := after .getTime (portHolding #v[0, 0, 0, 0, 0, 0, 0x7f, 0xff, 0xe0, 0, 0, 0, 0, 0, 0, 0])
    t.port.tsValid = true ∧ t.port.tsMs = 0 ∧ t.port.tsSubns = 999755 := by decide

/-- FLD1: a v4 value clears the time fields. -/
theorem test_getTime_v4 :
    let t := after .getTime { portHolding ex with tsValid := true, tsMs := 5, tsSubns := 6 }
    t.port.tsValid = false ∧ t.port.tsMs = 0 ∧ t.port.tsSubns = 0 := by decide

/-! ### Repack (T-REP) -/

/-- REP1. -/
theorem test_shift :
    output .shift ex = [0x01, 0x86, 0x7b, 0x2c, 0xa0, 0xdd, 0x59, 0xc8, 0xd7, 0x89, 0xe5, 0x45, 0x53, 0x8d, 0x6c, 0x90] ∧
      (after .shift (portHolding ex)).port.resVer = 4 := by decide

/-- REP2. -/
theorem test_shiftB32 : (output .shiftB32 ex).getLast? = some 0x48 := by decide

/-- REP5. -/
theorem test_shiftB64 : output .shiftB64 Ident.max = List.replicate 15 0xff ++ [0x3c] := by decide

/-- The port of REP7 to REP11. -/
def unshiftPort (v : BitVec 4) : Port := { portWith counting.toList with argVer := v }

/-- REP7. -/
theorem test_unshift :
    answer .unshift (unshiftPort 4) = (0, #v[0, 1, 2, 3, 4, 5, 0x40, 0x60, 0x07, 8, 9, 10, 11, 12, 13, 14]) := by decide

/-- REP10. -/
theorem test_unshiftB32 :
    answer .unshiftB32 (unshiftPort 7) = (0, #v[0, 1, 2, 3, 4, 5, 0x70, 0x60, 0x17, 8, 9, 10, 11, 12, 13, 14]) := by decide

/-- REP11. -/
theorem test_unshiftB64 :
    answer .unshiftB64 (unshiftPort 15) = (0, #v[0, 1, 2, 3, 4, 5, 0xf0, 0x60, 0x37, 8, 9, 10, 11, 12, 13, 14]) := by decide

/-! ### Parsing (T-PAR) -/

/-- PAR3. -/
theorem test_parse : answer .parse (portWith (text "\"01867b2c-a0dd-459c-98d7-89e545538d6c\"")) = (0, ex) := by decide

/-- PAR13: the variant character is checked before the hex digits; ID becomes nil. -/
theorem test_parse_fails :
    answer .parse { portWith (text "01867b2c-a0dd-459c-g8d7-89e545538d6c") with id := ex } = (4, Ident.nil) := by decide

/-- PAR18 and PAR30: the discarded bit of a base-32 final character, and a character outside base 64. -/
theorem test_parse_compact :
    parseText (text "EAGDHWLFA3VM4RV4J4VCVHDLMZ") = .ok ex ∧
      parseText (text "EAY+7LKDdWcjXieVFU41sJ") = .error .invalidDigit := by decide

/-- SH2: surrounding whitespace. -/
theorem test_parseShort :
    answer .parseShort (portWith (text "  2HUjp5meG84fgfZ5PbHxfU" ++ [0x0D, 0x0A])) = (0, ex) := by decide

/-- SH7: 2^128 is out of range. -/
theorem test_parseShort_range : answer .parseShort (portWith (text "oZEq7ovRbLq6UnGMPwc8B6")) = (5, Ident.nil) := by decide

/-- FB1. -/
theorem test_fromBytes : answer .fromBytes (portWith ex5.toList) = (0, ex5) := by decide

/-- FB3. -/
theorem test_fromBytes_length : answer .fromBytes (portWith (ex5.toList.take 15)) = (1, Ident.nil) := by decide

/-! ### Formatting (V1, V2, V3) -/

theorem test_fmtCanonical : output .fmtCanonical ex = text "01867b2c-a0dd-459c-98d7-89e545538d6c" := by decide

theorem test_fmtC32 : output .fmtC32 ex = text "EAGDHWLFA3VM4RV4J4VCVHDLMJ" := by decide

theorem test_fmtC64 : output .fmtC64 ex = text "EAYZ7LKDdWcjXieVFU41sJ" := by decide

theorem test_fmtShort : output .fmtShort ex = text "2HUjp5meG84fgfZ5PbHxfU" := by decide

theorem test_fmtShort_max : output .fmtShort Ident.max = text "oZEq7ovRbLq6UnGMPwc8B5" := by decide

theorem test_fmtRaw : output .fmtRaw ex = ex.toList := by decide

theorem test_fmtJson : output .fmtJson ex = text "\"01867b2c-a0dd-459c-98d7-89e545538d6c\"" := by decide

/-! ### Witnesses: the hypotheses of each obligation can be met, at the boundaries of their ranges -/

/-- Fifteen idle ports, the most there can be. -/
def full : State := machine false (List.replicate 15 Port.reset)

/-- `full` before its seeding step. -/
def unseeded : State := { full with g := { full.g with phase := .seeding } }

/-- `full` in test mode. -/
def fullTest : State := machine true (List.replicate 15 Port.reset)

/-- A production machine whose port 0 is in the middle of PARSE and whose port 1 is idle. -/
def oneBusy : State := machine false [{ Port.reset with seq := .busy 0x20 }, Port.reset]

/-- Port 0 spins with the lock at tick 1,000,000 and port 1 waits; the next events let port 0 complete, move TEST_CLOCK,
and let port 1 acquire and complete. -/
def twoStrict : State :=
  let s := machine true [{ Port.reset with seq := .strictSpin }, { Port.reset with seq := .strictAcq }]
  { s with
    g := { s.g with testClock := 1000000, lock := some 0 }
    env := { s.env with events := [.portStep 0, .write 0x4010 4 2000000, .portStep 1, .portStep 1] } }

theorem witness_fullPorts :
    PortIs full 0 Port.reset ∧ PortIs full 14 Port.reset ∧ full.g.phase = .ready ∧ Port.reset.seq = .idle :=
  ⟨⟨rfl, by decide⟩, ⟨rfl, by decide⟩, rfl, rfl⟩

theorem witness_DecodeReadsExactlyTheEncodedCommand :
    0xFFFFFF7F < 2 ^ 32 ∧ decodeTableWord 32 0xFFFFFF7F = some .testReseed ∧ encode .nop = encode .nop := by decide

theorem witness_IllegalOpcodeCompletesWithCodeEight :
    (∀ op ∈ ([0x05, 0x07, 0x0B, 0x0F, 0x13, 0x17, 0x1F, 0x23, 0x2F, 0x36, 0x7E, 0x80, 0xFF] : List Byte),
      illegalRange op = true ∧ (0xABCDEF00 ||| op.setWidth 32 : Word).extractLsb' 0 8 = op) ∧
    PortIs full 14 Port.reset ∧ full.g.phase = .ready ∧ Port.reset.seq = .idle :=
  ⟨by decide, ⟨rfl, by decide⟩, rfl, rfl⟩

/-- A machine whose next event is the step of port 0, which is in state `seq`. -/
def about (seq : Seq) : State :=
  let s := machine false [{ Port.reset with seq := seq }]
  { s with env := { s.env with events := [.portStep 0] } }

theorem witness_StepRunsTheCommandInProgress :
    (∀ seq, (about seq).nextEvent = .portStep 0 ∧ (about seq).g.phase = .ready ∧
      (about seq).ports[0]? = some { Port.reset with seq := seq }) ∧
    decodeOpcode 0x20 = .ok .parse ∧ decodeOpcode 0x04 = .ok .genV7Strict ∧
      decodeOpcode 0x80 = .error (.illegalOpcode 0x80) :=
  ⟨fun _ => ⟨rfl, rfl, rfl⟩, rfl, rfl, rfl⟩

/-- `oneBusy` with `e` as its next event. -/
def facing (e : Event) : State := { oneBusy with env := { oneBusy.env with events := [e] } }

theorem witness_StepTakesTheNextEvent :
    (∀ e, (facing e).nextEvent = e) ∧ (facing (.portStep 1)).ports[1]? = some Port.reset ∧ Port.reset.seq = .idle ∧
      (facing (.portStep 2)).ports[2]? = none ∧ unseeded.g.phase ≠ .ready :=
  ⟨fun _ => rfl, rfl, rfl, rfl, by decide⟩

theorem witness_CommandWriteIsAcceptedOrDropped :
    (PortIs oneBusy 1 Port.reset ∧ oneBusy.g.phase = .ready ∧ Port.reset.seq = .idle) ∧
    (PortIs oneBusy 0 { Port.reset with seq := .busy 0x20 } ∧
      ¬ (oneBusy.g.phase = .ready ∧ ({ Port.reset with seq := .busy 0x20 } : Port).seq = .idle)) ∧
    (PortIs unseeded 14 Port.reset ∧ unseeded.g.phase ≠ .ready) ∧
    oneBusy.ports[oneBusy.env.cur]? = some { Port.reset with seq := .busy 0x20 } ∧ (∀ i, decodeOpcode 0x05 ≠ .ok i) :=
  ⟨⟨⟨rfl, by decide⟩, rfl, rfl⟩, ⟨⟨rfl, by decide⟩, by decide⟩, ⟨⟨rfl, by decide⟩, by decide⟩, rfl,
    fun i => by cases i <;> decide⟩

theorem witness_OperandWritesNeedAnIdlePort :
    PortIs oneBusy 0 { Port.reset with seq := .busy 0x20 } ∧ PortIs oneBusy 1 Port.reset ∧
      (∀ r ∈ [PortReg.ilen, .id 0, .id 3, .argNsLo, .argNsHi, .argVer, .ibuf 0, .ibuf 15], r.exists = true) :=
  ⟨⟨rfl, by decide⟩, ⟨rfl, by decide⟩, by decide⟩

theorem witness_WritesElsewhereAreIgnored :
    (∀ off ∈ [0x004, 0x018, 0x01C, 0x040, 0x0FC, 0x13C, 0x1C0, 0x1FC, 0x300, 0xFFC], off < 4096 ∧ off % 4 = 0 ∧
      (off = 0x004 ∨ off = 0x018 ∨ off = 0x01C ∨ (0x040 ≤ off ∧ off < 0x100) ∨
        (0x100 ≤ off ∧ (oneBusy.nPorts ≤ off / 0x100 - 1 ∨ off % 0x100 = 0x3C ∨ 0xC0 ≤ off % 0x100)))) ∧
    (∀ off ∈ [0x010, 0x014, 0x020, 0x03C], off < 4096 ∧ off % 4 = 0 ∧ oneBusy.g.testMode = false ∧
      (off = 0x010 ∨ off = 0x014 ∨ (0x020 ≤ off ∧ off < 0x040))) ∧
    PortIs oneBusy 0 { Port.reset with seq := .busy 0x20 } ∧
    (∀ r ∈ [PortReg.status, .olen, .res, .tsMsLo, .tsMsHi, .tsSubns, .obuf 0, .obuf 15], r.exists = true) :=
  ⟨by decide, by decide, ⟨rfl, by decide⟩, by decide⟩

theorem witness_BadAccessGetsABusErrorAndChangesNothing :
    (0xFFF < 4096 ∧ 0xFFF % 4 ≠ 0) ∧ (0x000 < 4096 ∧ (2 : Nat) ≠ 4) ∧ (0xFFC < 4096 ∧ 0xFFC % 4 = 0) := by decide

theorem witness_ReadsHaveNoSideEffects :
    full.busRead 0x4FFC 4 = .next (answered full (.data 0)) ∧ full.busRead 0x4001 4 = .next (answered full .error) :=
  ⟨rfl, rfl⟩

theorem witness_AddressMapReachesEachRegister :
    PortIs full 14 Port.reset ∧ (PortReg.obuf 15).exists = true ∧ (PortReg.id 3).exists = true ∧
      (GlobalReg.testSeed 7).exists = true ∧ (3 : Nat) < 4 ∧ fullTest.g.testMode = true :=
  ⟨⟨rfl, by decide⟩, rfl, rfl, rfl, by decide, rfl⟩

theorem witness_StatusRegistersShowTheirFields :
    PortIs full 14 Port.reset ∧ Port.reset ∈ State.reset.ports ∧ full.ports[full.env.cur]? = some Port.reset ∧
      Port.reset.err ∈ ([0, 1, 2, 3, 4, 5, 8] : List (BitVec 4)) ∧
      (∃ t q, exec .nop full = .next t ∧ t.ports[full.env.cur]? = some q) ∧
      full.nPorts ≤ 15 ∧ (∀ p, twoStrict.g.lock = some p → p < 16) ∧ twoStrict.g.lock = some 0 :=
  ⟨⟨rfl, by decide⟩, List.mem_cons_self, rfl, by decide, ⟨_, _, rfl, rfl⟩, by decide,
    fun p h => by obtain rfl := (Option.some.inj h); decide, rfl⟩

theorem witness_IdWordsHoldTheIdentifierLittleEndianByLane :
    PortIs full 14 Port.reset ∧ Port.reset.seq = .idle ∧ (3 : Nat) < 4 := ⟨⟨rfl, by decide⟩, rfl, by decide⟩

theorem witness_TestRegistersFollowTheStrap :
    fullTest.g.testMode = true ∧ full.g.testMode = false ∧ GlobalReg.testClockLo.exists = true ∧
      GlobalReg.testClockHi.exists = true ∧ (GlobalReg.testSeed 0).exists = true ∧ (GlobalReg.testSeed 7).exists = true := by
  decide

theorem witness_SeedingStepSeedsOrHalts :
    unseeded.g.phase = .seeding ∧ unseeded.g.testMode = false ∧
      ({ fullTest with g := Shared.reset true (Vector.replicate 32 0) } : State).g.phase = .seeding ∧
      ({ fullTest with g := Shared.reset true (Vector.replicate 32 0) } : State).g.testMode = true ∧
      full.g.phase ≠ .seeding ∧ unseeded.g.phase ≠ .ready ∧ PortIs unseeded 14 Port.reset :=
  ⟨rfl, rfl, rfl, rfl, by decide, by decide, ⟨rfl, by decide⟩⟩

theorem witness_NopOnlyCompletes :
    statusWord full.g { { Port.reset with err := 3, done := true } with seq := .idle } = 0x132 := by decide

theorem witness_TestReseedLoadsTheSeedOnlyInTestMode :
    fullTest.g.testMode = true ∧ full.g.testMode = false ∧ ∃ t, exec .testReseed fullTest = .next t :=
  ⟨rfl, rfl, _, rfl⟩

theorem witness_GetTimeReadsAVersionSevenTime :
    numberOfIdent #v[0, 0, 0, 0, 0, 0, 0x7f, 0xff, 0xe0, 0, 0, 0, 0, 0, 0, 0] / 2 ^ 76 % 16 = 7 ∧
      numberOfIdent ex / 2 ^ 76 % 16 ≠ 7 := by decide

theorem witness_ReconstructedTimeIsCloseBelowTheTick :
    (1953 : Nat) % 1000000 = 1953 ∧ splitSlot 1953 = 7 ∧ splitSlot 15625 % 64 = 0 := by decide

theorem witness_SplitIsMonotoneAndFits :
    (2 ^ 63 - 1 : Nat) < 2 ^ 63 ∧ splitMs (2 ^ 63 - 1) = 9223372036854 ∧ (999999 : Nat) ≤ 1000000 := by decide

/-- `full` in test mode with TEST_CLOCK = `ns`. -/
def clockAt (ns : BitVec 64) : State := { fullTest with g := { fullTest.g with testClock := ns } }

/-- `full` in production with `ns` as the next draw of CLOCK. -/
def drawing (ns : BitVec 64) : State := { full with env := { full.env with clockIn := [ns] } }

theorem witness_GenV7WritesTheTickAndRandomBytes :
    Sampled (clockAt 0) 0 (clockAt 0).env ∧
      Sampled (drawing 0x7FFFFFFFFFFFFFFF) 0x7FFFFFFFFFFFFFFF { full.env with clockNo := 1 } ∧
      0 ≤ (0x7FFFFFFFFFFFFFFF : BitVec 64).toInt ∧ 0 ≤ full.port.argNs.toInt :=
  ⟨.inl ⟨rfl, rfl, rfl⟩, .inr ⟨rfl, rfl, rfl⟩, by decide, by decide⟩

theorem witness_NegativeTickHaltsTheBlock :
    Sampled (clockAt 0x8000000000000000) 0x8000000000000000 (clockAt 0).env ∧
      Sampled (drawing 0xFFFFFFFFFFFFFFFF) 0xFFFFFFFFFFFFFFFF { full.env with clockNo := 1 } ∧
      (0x8000000000000000 : BitVec 64).toInt < 0 ∧ twoStrict.port.seq = .strictSpin ∧ PortIs full 14 Port.reset ∧
      full.g.phase = .ready ∧ Port.reset.seq = .idle ∧ (0x80000000 : Word).getLsbD 31 = true :=
  ⟨.inl ⟨rfl, rfl, rfl⟩, .inr ⟨rfl, rfl, rfl⟩, by decide, rfl, ⟨rfl, by decide⟩, rfl, rfl, rfl⟩

theorem witness_StrictAcquireTakesAFreeLock :
    ((machine true [{ Port.reset with seq := .strictAcq }]).ports[0]? = some { Port.reset with seq := .strictAcq } ∧
      (machine true []).g.lock = none ∧ (machine true []).g.phase = .ready) ∧
    (twoStrict.ports[1]? = some { Port.reset with seq := .strictAcq } ∧ twoStrict.g.lock = some 0) ∧
    (machine true [{ Port.reset with seq := .strictAcq }]).port.seq = .strictAcq := ⟨⟨rfl, rfl, rfl⟩, ⟨rfl, rfl⟩, rfl⟩

/-- Port 0 spins at tick `ns` with the last-issued pair (1, 0). -/
def spinning (ns : BitVec 64) : State := { twoStrict with g := { twoStrict.g with testClock := ns, lastMs := 1 } }

theorem witness_StrictSpinCompletesOnlyOnALaterPair :
    (∀ ns, Sampled (spinning ns) ns (spinning ns).env ∧ (spinning ns).port.seq = .strictSpin) ∧
      (0x8000000000000000 : BitVec 64).toInt < 0 ∧ 0 ≤ (1000245 : BitVec 64).toInt ∧
      ((spinning 0).g.lastMs.toNat = 1000245 / 1000000 ∧
        (spinning 0).g.lastSlot.toNat < 1000245 % 1000000 * 4096 / 1000000) ∧
      ((spinning 0).g.lastMs.toNat = 1000244 / 1000000 ∧
        ¬ (spinning 0).g.lastSlot.toNat < 1000244 % 1000000 * 4096 / 1000000) ∧
      unseeded.g.phase ≠ .ready :=
  ⟨fun _ => ⟨.inl ⟨rfl, rfl, rfl⟩, rfl⟩, by decide, by decide, by decide, by decide, by decide⟩

theorem witness_PlainResultsFollowTheirTicks :
    Sampled (clockAt 244) 244 (clockAt 244).env ∧ Sampled (clockAt 245) 245 (clockAt 245).env ∧
      ClockNondecreasing [244, 245] ∧ 0 ≤ (244 : BitVec 64).toInt ∧ (clockAt 244).env.cur < (clockAt 244).nPorts ∧
      0 ≤ full.port.argNs.toInt ∧ full.port.argNs.toInt ≤ full.port.argNs.toInt :=
  ⟨.inl ⟨rfl, rfl, rfl⟩, .inl ⟨rfl, rfl, rfl⟩, by simp [ClockNondecreasing], by decide, by decide, by decide, le_refl _⟩

/-- The state after one step. -/
def stepped (s : State) : State := nextOr s (step s)

theorem witness_StrictResultsStrictlyIncrease :
    ∃ b1 b2, StrictCompletion twoStrict (stepped twoStrict) b1 ∧
      RunsWithoutReset 2 (stepped twoStrict) (stepped (stepped (stepped twoStrict))) ∧
      StrictCompletion (stepped (stepped (stepped twoStrict))) (stepped (stepped (stepped (stepped twoStrict)))) b2 :=
  ⟨_, _, ⟨0, _, _, rfl, rfl, rfl, rfl, rfl, rfl, rfl, rfl⟩, ⟨rfl, _, rfl, rfl, _, rfl, rfl⟩,
    ⟨1, _, _, rfl, rfl, rfl, rfl, rfl, rfl, rfl, rfl⟩⟩

theorem witness_UnshiftUndoesShift : (2 : Nat) < 3 ∧ full.env.cur < full.nPorts := by decide

theorem witness_ShiftUndoesUnshiftUpToIgnoredBits :
    (2 : Nat) < 3 ∧ byteAt Ident.nil 15 &&& ~~~(0xF0#8 >>> 2) = 0 ∧
      unshiftBytes 2 Ident.nil 4 = unshiftBytes 2 Ident.nil 4 := by decide

theorem witness_ParseCommandsEndWellFormedOrNil :
    full.env.cur < full.nPorts ∧ fullTest.port.ibuf = full.port.ibuf ∧ fullTest.port.ilen = full.port.ilen ∧
      ∃ t, exec .fromBytes full = .next t := ⟨by decide, rfl, rfl, _, rfl⟩

theorem witness_FromBytesTakesExactlySixteenBytes :
    (machine true [portWith ex5.toList]).port.ilen = 16 ∧ full.port.ilen ≠ 16 := by decide

/-- The state of a command on the string `l`, and what the decoder `f` makes of IBUF[0..ILEN-1] there. -/
def decodes (f : List Byte → Except ParseError Ident) (l : List Byte) (r : Except ParseError Ident) : Bool :=
  let s := machine true [portWith l]
  decide (s.port.ilen.toNat ≤ 64) && decide (f (s.port.ibuf.toList.take s.port.ilen.toNat) = r)

/-- ILEN = 64, the empty string, one string for each of the five errors (PAR13 and its neighbours), one that parses, and
the sixteen bytes of an ill-formed value. -/
theorem witness_ParseOfAtMostSixtyFourBytes :
    decodes parseText (List.replicate 64 0x41) (.error .malformedLength) = true ∧
      (machine true [portWith (List.replicate 64 0x41)]).port.ilen.toNat = 64 ∧
      decodes parseText [] (.error .malformedLength) = true ∧
      decodes parseText (text "01867b2c_a0dd-459c-98d7-89e545538d6c") (.error .malformedSeparator) = true ∧
      decodes parseText (text "01867b2c-a0dd-559c-98d7-89e545538d6c") (.error .unsupportedVersion) = true ∧
      decodes parseText (text "01867b2c-a0dd-459c-g8d7-89e545538d6c") (.error .invalidVariant) = true ∧
      decodes parseText (text "01867b2c-a0dd-459c-98d7-89e545538d6g") (.error .invalidDigit) = true ∧
      decodes parseText (text "01867b2c-a0dd-459c-98d7-89e545538d6c") (.ok ex) = true ∧
      decodes parseText ex5.toList (.error .unsupportedVersion) = true ∧ validate ex5 = some .unsupportedVersion := by decide

theorem witness_ParseDispatchesOnTheStrippedLength :
    64 < (machine true [{ Port.reset with ilen := 65 }]).port.ilen.toNat ∧
      (text "x").length ∉ [16, 22, 26, 36] ∧ (text "x").head? ≠ some 0x22 ∧ (quoteByte :: text "x").getLast? ≠ some 0x22 ∧
      [quoteByte].length < 2 ∧ [quoteByte, quoteByte].length ∈ [0, 1, 2, 15, 17, 35, 37, 39] := by decide

/-- Whether the four dashes stand in place, as the obligation on the canonical form says it. -/
def dashed (l : List Byte) : Bool :=
  l.length == 36 && charAt l 8 == 0x2D && charAt l 13 == 0x2D && charAt l 18 == 0x2D && charAt l 23 == 0x2D

theorem witness_CanonicalChecksComeInOrder :
    dashed (text "01867b2c_a0dd-559c-c8d7-89e545538d6g") = false ∧
      (dashed nilCanon = true ∧ charAt nilCanon 14 = 0x30) ∧ (dashed maxCanon = true ∧ charAt maxCanon 14 = 0x66) ∧
      (dashed (text "01867b2c-a0dd-559c-98d7-89e545538d6c") = true ∧
        charAt (text "01867b2c-a0dd-559c-98d7-89e545538d6c") 14 = 0x35) ∧
      (dashed (text "ffffffff-ffff-4fff-efff-ffffffffffff") = true ∧
        charAt (text "ffffffff-ffff-4fff-efff-ffffffffffff") 19 ∉ ([0x38, 0x39, 0x41, 0x61, 0x42, 0x62] : List Byte)) ∧
      (charAt (text "01867b2c-a0dd-459c-98d7-89e545538d6g") 19 = 0x39 ∧
        digitValues hexValue (canonicalHex (text "01867b2c-a0dd-459c-98d7-89e545538d6g")) = none) ∧
      digitValues hexValue (canonicalHex (text "01867b2c-a0dd-759c-98d7-89e545538d6c")) ≠ none := by decide

theorem witness_CompactFinalCharacterDecidesTheVariant :
    (text "EAGDHWLFA3VM4RV4J4VCVHDLMJ").length = 26 ∧ charAt (text "eagdhwlfa3vm4rv4j4vcvhdlmj") 0 ∈ text "EeHh" ∧
      digitValues base32Value ((text "EAGDH0LFA3VM4RV4J4VCVHDLMJ").drop 1) = none ∧
      (digitValues base32Value ((text "EAGDHWLFA3VM4RV4J4VCVHDLMZ").drop 1)).isSome = true ∧
      charAt (text "EAGDHWLFA3VM4RV4J4VCVHDLMZ") 25 ∈ text "IJKLYZ23ijklyz" ∧
      (digitValues base32Value ((text "EAGDHWLFA3VM4RV4J4VCVHDLMA").drop 1)).isSome = true ∧
      charAt (text "EAGDHWLFA3VM4RV4J4VCVHDLMA") 25 ∉ text "IJKLYZ23ijklyz" ∧
      (text "HAYZ7LKDdWcjXieVFU41s5").length = 22 ∧
      digitValues base64Value ((text "EAY+7LKDdWcjXieVFU41sJ").drop 1) = none ∧
      (digitValues base64Value ((text "HAYZ7LKDdWcjXieVFU41s5").drop 1)).isSome = true ∧
      (digitValues base64Value ((text "EAYZ7LKDdWcjXieVFU41sj").drop 1)).isSome = true ∧
      charAt (text "HAYZ7LKDdWcjXieVFU41s5") 21 ∈ text "IJKLYZabopqr4567" ∧
      charAt (text "EAYZ7LKDdWcjXieVFU41sj") 21 ∉ text "IJKLYZabopqr4567" := by decide

theorem witness_CompactLiteralsAndLeadingCharacters :
    ((text "BAGDHWLFA3VM4RV4J4VCVHDLMJ").length = 26 ∧ charAt (text "BAGDHWLFA3VM4RV4J4VCVHDLMJ") 0 ∉ text "AaEeHhPp") ∧
      (text "2HUjp5meG84fgfZ5PbHxfU").length = 22 ∧ charAt nilC32 0 ∈ text "Aa" ∧ charAt maxC32 0 ∈ text "Pp" ∧
      nilC64.length = 22 ∧ maxC64.length = 22 ∧ charAt (text "p____________________P") 0 ∈ text "Pp" := by decide

theorem witness_CaseOfLettersInCanonicalAndCompactForms :
    maxCanon.length = 36 ∧ maxCanon.map upper = (maxCanon.map upper).map upper ∧
      (text "EAGDHWLFA3VM4RV4J4VCVHDLMJ").length = 26 ∧
      (text "EAGDHWLFA3VM4RV4J4VCVHDLMJ").map upper = (text "eagdhwlfa3vm4rv4j4vcvhdlmj").map upper ∧
      (nilC64.drop 1).length = 21 ∧ upper (ascii 'a') = upper (ascii 'A') := by decide

/-- ILEN = 64 with surrounding whitespace, and one string for each result: the value, and the four errors. -/
theorem witness_ParseShortOfAtMostSixtyFourBytes :
    decodes parseShortText (text "2HUjp5meG84fgfZ5PbHxfU" ++ List.replicate 42 0x20) (.ok ex) = true ∧
      decodes parseShortText [] (.error .malformedLength) = true ∧
      decodes parseShortText (shortText ex5) (.error .unsupportedVersion) = true ∧
      decodes parseShortText (shortText (ex.set 8 0xC8)) (.error .invalidVariant) = true ∧
      decodes parseShortText (text "2HUjp5meG84fgfZ5PbHxf0") (.error .invalidDigit) = true := by decide

theorem witness_ParseShortDecodesAndChecksTheRange :
    64 < (machine true [{ Port.reset with ilen := 255 }]).port.ilen.toNat ∧
      (trim (text "2HUjp5meG84fgfZ5PbHxf ")).length ≠ 22 ∧ (trim (text " 2HUjp5meG84fgfZ5PbHxfU")).length = 22 ∧
      digitValues base57Value (trim (text "2HUjp5meG84fgfZ5PbHxf0")) = none ∧
      (digitValues base57Value (text "oZEq7ovRbLq6UnGMPwc8B6")).map (fun ds => decide (2 ^ 128 ≤ numberBE 57 ds)) =
        some true ∧
      (digitValues base57Value maxS57).map (fun ds => decide (numberBE 57 ds < 2 ^ 128)) = some true ∧
      (∀ c ∈ text " " ++ [0x0D, 0x0A], c ∈ ([0x20, 0x09, 0x0A, 0x0B, 0x0C, 0x0D] : List Byte)) := by decide

theorem witness_ValidateAcceptsExactlyTheWellFormed :
    ex5.wellFormed = false ∧ ¬ (ex5[6].toNat / 16 = 4 ∨ ex5[6].toNat / 16 = 7) ∧
      Ident.wellFormed (ex.set 8 0xC8) = false ∧ ex[6].toNat / 16 = 4 := by decide

theorem witness_NilAndMaxHaveTheirFixedForms :
    (machine true [portHolding Ident.max]).port.id = Vector.replicate 16 0xFF ∧
      (machine true [portWith maxC64]).port.input = text "P____________________P" ∧
      (machine true [portWith maxC64]).port.ilen.toNat = 22 := by decide

/-- A machine whose port 0 holds `b`. -/
def holding (b : Ident) : State := machine false [portHolding b]

theorem witness_CanonicalAndJsonFormsRoundTrip :
    (holding ex).env.cur < (holding ex).nPorts ∧ (holding ex).port.id.wellFormed = true := by decide

theorem witness_CompactFormsRoundTrip :
    (holding Ident.max).env.cur < (holding Ident.max).nPorts ∧ (holding Ident.max).port.id.wellFormed = true := by decide

theorem witness_ShortAndRawFormsRoundTrip :
    (holding ex).env.cur < (holding ex).nPorts ∧ (holding ex).port.id.wellFormed = true ∧
      ¬ ((holding ex).port.id[0] = 0x22 ∧ (holding ex).port.id[15] = 0x22) ∧
      (holding #v[0x22, 0, 0, 0, 0, 0, 0x40, 0, 0x80, 0, 0, 0, 0, 0, 0, 0x22]).port.id.wellFormed = true := by decide

theorem witness_EachCommandHasItsPossibleCodes : full.env.cur < full.nPorts := by decide

/-- `oneBusy` after a fatal event. -/
def halted : State := { oneBusy with g := { oneBusy.g with phase := .fatal, fatalCause := 7 } }

theorem witness_FatalStopsEveryAgentUntilReset :
    halted.g.phase = .fatal ∧ isReset (.portStep 0) = false ∧ halted.takeEvent (.portStep 0) = .next halted ∧
      halted.takeEvent .seedStep = .next halted ∧ halted.ports[0]? = some { Port.reset with seq := .busy 0x20 } ∧
      ({ Port.reset with seq := .busy 0x20 } : Port).seq ≠ .idle := ⟨rfl, rfl, rfl, rfl, rfl, by decide⟩

/-- `twoStrict` with a free lock and port 1's acquire step to come. -/
def acquiring : State := machine true [Port.reset, { Port.reset with seq := .strictAcq }]

theorem witness_ResultsAppearOnlyAtCompletion :
    ∃ t q q', isReset (.portStep 1) = false ∧ acquiring.takeEvent (.portStep 1) = .next t ∧
      acquiring.ports[1]? = some q ∧ t.ports[1]? = some q' ∧ q.seq ≠ .idle ∧ q'.seq ≠ .idle :=
  ⟨_, _, _, rfl, rfl, rfl, rfl, by decide, by decide⟩

theorem witness_CommandsTouchOnlyTheirOwnPort :
    (∃ t, exec .genV4 full = .next t) ∧ 14 ≠ full.env.cur ∧ full.g = oneBusy.g ∧ full.env = oneBusy.env ∧
      full.ports[full.env.cur]? = some Port.reset ∧ (machine false [Port.reset]).ports[full.env.cur]? = some Port.reset :=
  ⟨⟨_, rfl⟩, by decide, rfl, rfl, rfl, rfl⟩

theorem witness_ProductionCannotReachTheSubstitutes :
    full.g.testMode = false ∧ isReset .seedStep = false ∧ full.takeEvent .seedStep = .next full := ⟨rfl, rfl, rfl⟩

theorem witness_EveryStepKeepsTheInvariant : Inv twoStrict ∧ ∃ t, step twoStrict = .next t := by
  refine ⟨⟨by decide, ⟨4, rfl⟩, rfl, ?_, (fun h => by cases h), ?_⟩, _, rfl⟩
  · intro p
    match p with
    | 0 => exact ⟨fun _ => rfl, fun _ => ⟨_, rfl, rfl⟩⟩
    | 1 => exact ⟨fun ⟨q, h, hs⟩ => (by obtain rfl := Option.some.inj h; cases hs), fun h => (by cases h)⟩
    | n + 2 => exact ⟨fun ⟨q, h, _⟩ => (by cases h), fun h => (by cases h)⟩
  · have zero : ∀ i : Nat, byteAt (Vector.replicate 64 0 : Buffer) i = 0 := by
      intro i
      unfold byteAt
      by_cases h : i < 64 <;> simp [h]
    intro q hq
    simp only [twoStrict, machine, List.mem_cons, List.not_mem_nil, or_false] at hq
    rcases hq with rfl | rfl <;>
      exact ⟨by decide, by decide, by decide, by decide, by decide, fun i _ => zero i, by decide, by decide⟩

theorem witness_SafeEventsNeverFault :
    addressesBlock full (.read 0x4FFF 1) = true ∧ addressesBlock full (.read 0x5000 4) = false ∧
      addressesBlock full (.write 0x3FFF 4 0) = false ∧ addressesBlock full .seedStep = true := by decide

/-- The endless execution through `s` and `t` to `u`, where it stays. -/
def settling (s t u : State) : Nat → State
  | 0 => s
  | 1 => t
  | _ + 2 => u

/-- An execution that settles where no step is enabled meets PORT_PROGRESS. -/
theorem settling_meets_portProgress {s t u : State} {e : Event} (h1 : Takes s e t) (h2 : Takes t e u) (h3 : Takes u e u)
    (h : ∀ e', u.stepEnabled e' = false) :
    IsExecution (settling s t u) (fun _ => e) ∧ PortProgress (settling s t u) (fun _ => e) := by
  refine ⟨fun n => ?_, fun e' n he => ?_⟩
  · match n with
    | 0 => exact h1
    | 1 => exact h2
    | _ + 2 => exact h3
  · exact absurd (he (n + 2) (by omega)) (by simp [settling, h])

/-- Nothing is enabled on a READY block whose one port is idle. -/
theorem nothing_enabled {s : State} (hp : s.g.phase = .ready) (h : s.ports.map Port.seq = [.idle]) :
    ∀ e, s.stepEnabled e = false := by
  obtain ⟨q, hs, hq⟩ := List.map_eq_singleton_iff.1 h
  intro e
  cases e with
  | portStep p => rcases p with _ | p <;> simp [State.stepEnabled, State.portEnabled, Port.reset, hs, hq]
  | seedStep => simp [State.stepEnabled, hp]
  | read _ _ => rfl
  | write _ _ _ => rfl
  | reset _ => rfl

/-- A step that is not enabled changes nothing. -/
theorem stutters {s : State} (p : Nat) (h : s.portEnabled p = false) : Takes s (.portStep p) s :=
  ⟨s.env.events, s.env.eventNo, by simp [State.takeEvent, State.portStep, h]⟩

/-- An idle port is in no other state of its sequencer. -/
theorem not_seqIs {s : State} {seq : Seq} (h : s.ports.map Port.seq = [.idle]) (hne : seq ≠ .idle) : ¬ SeqIs s 0 seq := by
  obtain ⟨q, hs, hq⟩ := List.map_eq_singleton_iff.1 h
  rintro ⟨q', hq', rfl⟩
  simp_all

/-- A test-mode block whose one port is in state `seq`, at tick 245, with the lock held or free. -/
def lone (seq : Seq) (lock : Option Nat) : State :=
  let s := machine true [{ Port.reset with seq := seq }]
  { s with g := { s.g with testClock := 245, lock := lock } }

/-- `lone` before its seeding step. -/
def loneUnseeded : State := { lone .idle none with g := { (lone .idle none).g with phase := .seeding } }

/-- The state after the event `e`. -/
def taken (e : Event) (s : State) : State := nextOr s (s.takeEvent e)

/-- A clock that stands still meets CLOCK_NONDECREASING. -/
theorem constant_clock {run : Nat → State} {ev : Nat → Event} (c : BitVec 64) (h : ∀ n, (run n).nowValue = c) :
    ExecutionClockNondecreasing run ev := by
  have value : ∀ (n : Nat) (x : BitVec 64), (run n).nowInStep (ev n) = some x → x = c := by
    intro n x hx
    cases he : ev n with
    | portStep p =>
      simp only [he, State.nowInStep] at hx
      split at hx
      · rw [← Option.some.inj hx, h n]
      · cases hx
    | seedStep => rw [he] at hx; cases hx
    | read _ _ => rw [he] at hx; cases hx
    | write _ _ _ => rw [he] at hx; cases hx
    | reset _ => rw [he] at hx; cases hx
  intro n
  refine List.pairwise_filterMap.2 (List.pairwise_of_forall fun i j x hx y hy => ?_)
  rw [value i x hx, value j y hy]

/-- Two ports about to perform GEN_V7, in test mode at tick 245. -/
def twoPlain : State :=
  let q : Port := { Port.reset with seq := .busy 0x02 }
  let s := machine true [q, q]
  { s with g := { s.g with testClock := 245 } }

/-- Port 0's step first, then port 1's. -/
def inTurn : Nat → Event
  | 0 => .portStep 0
  | _ + 1 => .portStep 1

theorem witness_PlainResultsFollowTheirTicks_execution :
    ∃ run b1 b2, IsExecution run inTurn ∧ ExecutionClockNondecreasing run inTurn ∧
      PlainCompletion (run 0) (inTurn 0) (run 1) b1 ∧ PlainCompletion (run 1) (inTurn 1) (run 2) b2 ∧
      nowValues run inTurn 3 = [245, 245] := by
  let t := taken (.portStep 0) twoPlain
  let u := taken (.portStep 1) t
  have h1 : Takes twoPlain (.portStep 0) t := ⟨[], 0, rfl⟩
  have h2 : Takes t (.portStep 1) u := ⟨[], 0, rfl⟩
  refine ⟨settling twoPlain t u, _, _, fun n => ?_, constant_clock 245 fun n => ?_,
    ⟨0, _, rfl, rfl, ⟨_, rfl, rfl⟩, h1, rfl, rfl, rfl⟩, ⟨1, _, rfl, rfl, ⟨_, rfl, rfl⟩, h2, rfl, rfl, rfl⟩, rfl⟩
  · match n with
    | 0 => exact h1
    | 1 => exact h2
    | _ + 2 => exact stutters 1 rfl
  · match n with
    | 0 => rfl
    | 1 => rfl
    | _ + 2 => rfl

/-- Each clause of the obligation has an execution that meets its premises: the seeding step; an opcode next to 0x04; an
acquire step with a free lock, then the spin step; a spin step whose sample, slot 1, is the least that exceeds (0, 0). -/
theorem witness_ProgressCompletesCommands :
    (∃ run ev, IsExecution run ev ∧ PortProgress run ev ∧ (run 0).g.phase = .seeding) ∧
    (∃ run ev, IsExecution run ev ∧ PortProgress run ev ∧ (run 0).g.phase = .ready ∧ SeqIs (run 0) 0 (.busy 0x05)) ∧
    (∃ run ev, IsExecution run ev ∧ PortProgress run ev ∧ (run 0).g.phase = .ready ∧ SeqIs (run 0) 0 .strictAcq ∧
      ∀ m, 0 ≤ m → SeqIs (run m) 0 .strictAcq → (run m).g.lock = none) ∧
    (∃ run ev, IsExecution run ev ∧ PortProgress run ev ∧ (run 0).g.phase = .ready ∧ SeqIs (run 0) 0 .strictSpin ∧
      ∀ m, 0 ≤ m → SeqIs (run m) 0 .strictSpin → SampleIsLater (run m)) := by
  have settle : ∀ {s t u : State} {e : Event}, Takes s e t → Takes t e u → Takes u e u →
      u.g.phase = .ready → u.ports.map Port.seq = [.idle] →
      IsExecution (settling s t u) (fun _ => e) ∧ PortProgress (settling s t u) (fun _ => e) :=
    fun h1 h2 h3 hp hs => settling_meets_portProgress h1 h2 h3 (nothing_enabled hp hs)
  refine ⟨?_, ?_, ?_, ?_⟩
  · let t := taken .seedStep loneUnseeded
    obtain ⟨hx, hp⟩ := settle (s := loneUnseeded) (t := t) (u := t) (e := .seedStep) ⟨[], 0, rfl⟩ ⟨[], 0, rfl⟩
      ⟨[], 0, rfl⟩ (by decide) (by decide)
    exact ⟨_, _, hx, hp, rfl⟩
  · let t := taken (.portStep 0) (lone (.busy 0x05) none)
    obtain ⟨hx, hp⟩ := settle (s := lone (.busy 0x05) none) (t := t) (u := t) (e := .portStep 0) ⟨[], 0, rfl⟩
      ⟨[], 0, rfl⟩ ⟨[], 0, rfl⟩ (by decide) (by decide)
    exact ⟨_, _, hx, hp, rfl, _, rfl, rfl⟩
  · let t := lone .strictSpin (some 0)
    let u := taken (.portStep 0) t
    have hu : u.ports.map Port.seq = [.idle] := by decide
    obtain ⟨hx, hp⟩ := settle (s := lone .strictAcq none) (t := t) (u := u) (e := .portStep 0) ⟨[], 0, rfl⟩
      ⟨[], 0, rfl⟩ (stutters 0 (by decide)) (by decide) hu
    refine ⟨_, _, hx, hp, rfl, ⟨_, rfl, rfl⟩, fun m _ h => ?_⟩
    match m with
    | 0 => rfl
    | 1 => obtain ⟨q, hq, hs⟩ := h; obtain rfl := Option.some.inj hq; cases hs
    | _ + 2 => exact absurd h (not_seqIs hu (by decide))
  · let s := lone .strictSpin (some 0)
    let u := taken (.portStep 0) s
    have hu : u.ports.map Port.seq = [.idle] := by decide
    have idle : Takes u (.portStep 0) u := stutters 0 (by decide)
    obtain ⟨hx, hp⟩ := settle (s := s) (e := .portStep 0) ⟨[], 0, rfl⟩ idle idle (by decide) hu
    refine ⟨_, _, hx, hp, rfl, ⟨_, rfl, rfl⟩, fun m _ h => ?_⟩
    match m with
    | 0 => exact ⟨by decide, by decide⟩
    | 1 => exact absurd h (not_seqIs hu (by decide))
    | _ + 2 => exact absurd h (not_seqIs hu (by decide))

end Sys2Proof.Tests
end

section
/-! SUPPORT. The machine's invariant holds at reset, and every step keeps it. Its parts are shown to be kept once for each
way a step changes the machine: the ports stay, one port is replaced, or reset is asserted. -/

namespace Sys2Proof

open Sys2Proof.Machine

/-! ### One port's registers -/

theorem byteAt_replicate_zero (n i : Nat) : byteAt (Vector.replicate n (0 : Byte)) i = 0 := by
  by_cases h : i < n <;> simp [byteAt, h]

theorem PortInv.reset : PortInv Port.reset :=
  ⟨by decide, fun _ => rfl, fun h => absurd rfl h, by decide, by decide, fun i _ => byteAt_replicate_zero 64 i,
    by decide, fun _ => ⟨rfl, rfl⟩⟩

/-- An output form of at most 38 bytes leaves OLEN in its bound and OBUF 0 from there up (45_format.md R320). -/
theorem output_legal {p : Port} {f : List Byte} (hf : f.length ≤ 38) (hobuf : p.obuf = bytesPadded 64 f)
    (holen : p.olen = BitVec.ofNat 8 f.length) :
    p.olen.toNat ≤ 38 ∧ ∀ i : Nat, p.olen.toNat ≤ i → byteAt p.obuf i = 0 := by
  have hlen : p.olen.toNat = f.length := by rw [holen, BitVec.toNat_ofNat]; omega
  rw [hlen, hobuf]
  exact ⟨hf, fun _ hi => byteAt_bytesPadded_ge hi⟩

/-- The results a command may leave are legal in any completed port. -/
theorem PortInv.complete {q p : Port} {err : BitVec 4} (h : PortInv q) (hp : KeepsOperands q p)
    (herr : err ∈ [0, 1, 2, 3, 4, 5, 8]) : PortInv (p.complete err) := by
  have hout : p.olen.toNat ≤ 38 ∧ ∀ i : Nat, p.olen.toNat ≤ i → byteAt p.obuf i = 0 := by
    rcases hp.output with ⟨hobuf, holen⟩ | ⟨f, hf, hobuf, holen⟩
    · rw [hobuf, holen]; exact ⟨h.olenBound, h.obufTail⟩
    · exact output_legal hf hobuf holen
  have htime : p.tsSubns.toNat ≤ 999755 ∧ (p.tsValid = false → p.tsMs = 0 ∧ p.tsSubns = 0) := by
    rcases hp.time with ⟨hv, hms, hns⟩ | ⟨hv, hns⟩ | ⟨-, hms, hns⟩
    · rw [hv, hms, hns]; exact ⟨h.subnsBound, h.tsInvalid⟩
    · exact ⟨hns, fun h0 => absurd (hv.symm.trans h0) (by decide)⟩
    · rw [hms, hns]; exact ⟨by decide, fun _ => ⟨rfl, rfl⟩⟩
  exact ⟨herr, fun _ => rfl, fun hb => absurd rfl hb, fun hs => (by cases hs), hout.1, hout.2, htime.1, htime.2⟩

theorem acceptedSeq_ne_busy_strict (op : Byte) : acceptedSeq op ≠ .busy 0x04 := by
  unfold acceptedSeq
  split
  · exact fun h => (by cases h)
  · rename_i hop; exact fun h => hop (Seq.busy.inj h)

theorem acceptedSeq_ne_strictSpin (op : Byte) : acceptedSeq op ≠ .strictSpin := by
  unfold acceptedSeq
  split <;> exact fun h => (by cases h)

theorem PortInv.accept {q : Port} (h : PortInv q) (op : Byte) : PortInv (q.accept op) :=
  ⟨by simp, fun hd => (by cases hd), fun _ => rfl, acceptedSeq_ne_busy_strict op, h.olenBound, h.obufTail,
    h.subnsBound, h.tsInvalid⟩

/-- A port that goes from one strict state to the next keeps its registers legal (42_generate.md R217). -/
theorem PortInv.toSpin {q : Port} (h : PortInv q) (hs : q.seq = .strictAcq) : PortInv { q with seq := .strictSpin } := by
  have hbusy : q.seq ≠ .idle := fun h' => (by cases hs.symm.trans h')
  exact ⟨h.errLegal, fun hd => absurd (h.doneIdle hd) hbusy, fun _ => h.errBusy hbusy, fun h' => (by cases h'),
    h.olenBound, h.obufTail, h.subnsBound, h.tsInvalid⟩

theorem PortInv.write {q : Port} (h : PortInv q) (phase : Phase) (v : Word) (r : PortReg) :
    PortInv (q.write phase v r) := by
  rcases q.write_cases phase v r with ⟨-, -, -, hw⟩ | ⟨-, -, hw⟩ | ⟨-, -, id, ibuf, ilen, argNs, argVer, hw⟩ | ⟨-, hw⟩ <;>
    rw [hw]
  · exact h.accept _
  · exact ⟨h.errLegal, h.doneIdle, h.errBusy, h.strictSeq, h.olenBound, h.obufTail, h.subnsBound, h.tsInvalid⟩
  · exact ⟨h.errLegal, h.doneIdle, h.errBusy, h.strictSeq, h.olenBound, h.obufTail, h.subnsBound, h.tsInvalid⟩
  · exact h

/-- A write starts a command only where the block is READY, and never in STRICT_SPIN (20_memory.md R92). -/
theorem seq_write (q : Port) (phase : Phase) (v : Word) (r : PortReg) :
    (q.write phase v r).seq = q.seq ∨
      phase = .ready ∧ q.seq = .idle ∧ (q.write phase v r).seq = acceptedSeq (v.extractLsb' 0 8) := by
  rcases q.write_cases phase v r with ⟨-, hr, hi, hw⟩ | ⟨-, -, hw⟩ | ⟨-, -, id, ibuf, ilen, argNs, argVer, hw⟩ | ⟨-, hw⟩ <;>
    rw [hw]
  · exact .inr ⟨hr, hi, rfl⟩
  · exact .inl rfl
  · exact .inl rfl
  · exact .inl rfl

/-! ### The ways a step changes the machine -/

/-- How replacing port `k`, `q` by `p`, goes with LOCK: it stays with its holder, is taken by `k`, or is released by `k`
(10_state.md R37). -/
inductive LockMove (k : Nat) (q p : Port) : Option Nat → Option Nat → Prop
  | stays {lock : Option Nat} (hs : p.seq = .strictSpin ↔ q.seq = .strictSpin) : LockMove k q p lock lock
  | taken (hs : p.seq = .strictSpin) : LockMove k q p none (some k)
  | released {lock : Option Nat} (hq : q.seq = .strictSpin) (hp : p.seq ≠ .strictSpin) : LockMove k q p lock none

/-- The spinning ports `S` were those that hold LOCK, and after the move they are again. -/
theorem LockMove.spins_iff_holds {k : Nat} {q p : Port} {lock lock' : Option Nat} {S : Nat → Prop}
    (hm : LockMove k q p lock lock') (hS : ∀ m, S m ↔ lock = some m) (hk : S k ↔ q.seq = .strictSpin) (m : Nat) :
    (if m = k then p.seq = .strictSpin else S m) ↔ lock' = some m := by
  by_cases hmk : m = k
  · subst hmk
    rw [if_pos rfl]
    cases hm with
    | stays hs => rw [hs, ← hk, hS]
    | taken hs => simp [hs]
    | released hq hp => simp [hp]
  · rw [if_neg hmk, hS]
    cases hm with
    | stays hs => rfl
    | taken hs => simp [Ne.symm hmk]
    | released hq hp =>
      have hl : lock = some k := (hS k).mp (hk.mpr hq)
      simp [hl, Ne.symm hmk]

theorem seqIs_set {s t : State} {k p : Nat} {x : Port} {seq : Seq} (hk : k < s.nPorts) (hset : t.ports = s.ports.set k x) :
    SeqIs t p seq ↔ if p = k then x.seq = seq else SeqIs s p seq := by
  have hk' : k < s.ports.length := hk
  by_cases hp : p = k
  · subst hp; simp [SeqIs, hset, hk']
  · simp [SeqIs, hset, hp, List.getElem?_set_ne (Ne.symm hp)]

/-- Ports, LOCK and BASE stay, and FATAL_CAUSE fits the new PHASE, which is SEEDING only if it was before. -/
theorem Inv.keepPorts {s t : State} (h : Inv s) (hbase : t.base = s.base) (hports : t.ports = s.ports)
    (hlock : t.g.lock = s.g.lock)
    (hcause : if t.g.phase = .fatal then t.g.fatalCause = 6 ∨ t.g.fatalCause = 7 else t.g.fatalCause = 0)
    (hseed : t.g.phase = .seeding → s.g.phase = .seeding) : Inv t := by
  refine ⟨?_, hbase ▸ h.baseAligned, hcause, ?_, ?_, ?_⟩
  · simpa only [State.nPorts, hports] using h.portCount
  · simpa only [hports, hlock] using h.lockSpin
  · exact fun hp => hports ▸ h.seedingIdle (hseed hp)
  · exact hports ▸ h.eachPort

/-- The invariant reads neither the record of the outside world nor the generator, the last-issued pair and the test
registers. -/
theorem Inv.congr {s t : State} (h : Inv s) (hbase : t.base = s.base) (hports : t.ports = s.ports)
    (hphase : t.g.phase = s.g.phase) (hcause : t.g.fatalCause = s.g.fatalCause) (hlock : t.g.lock = s.g.lock) : Inv t :=
  h.keepPorts hbase hports hlock (by rw [hphase, hcause]; exact h.cause) hphase.symm.trans

theorem Inv.setEnv {s : State} (h : Inv s) (e : Env) : Inv (s.setEnv e) := h.congr rfl rfl rfl rfl rfl

theorem Inv.raiseFatal {s : State} (h : Inv s) (c : FatalCause) : Inv (s.raiseFatal c) := by
  refine h.keepPorts rfl rfl rfl ?_ (fun hp => (by cases hp))
  cases c
  · exact .inl rfl
  · exact .inr rfl

theorem Inv.seedWith {s : State} (h : Inv s) (hp : s.g.phase = .seeding) (seed : Seed) : Inv (s.seedWith seed) := by
  have hcause : s.g.fatalCause = 0 := by simpa [hp] using h.cause
  exact h.keepPorts rfl rfl rfl hcause (fun hp' => (by cases hp'))

/-- Port `k` is replaced by one with legal registers, BUSY only past SEEDING, and LOCK moves with its sequencer. -/
theorem Inv.replacePort {s t : State} {k : Nat} {q p : Port} (h : Inv s) (hq : s.ports[k]? = some q)
    (hbase : t.base = s.base) (hports : t.ports = s.ports.set k p) (hphase : t.g.phase = s.g.phase)
    (hcause : t.g.fatalCause = s.g.fatalCause) (hp : PortInv p) (hidle : s.g.phase = .seeding → p.seq = .idle)
    (hlock : LockMove k q p s.g.lock t.g.lock) : Inv t := by
  have hk : k < s.nPorts := (List.getElem?_eq_some_iff.mp hq).1
  have hspin : SeqIs s k .strictSpin ↔ q.seq = .strictSpin := by simp [SeqIs, hq]
  refine ⟨?_, hbase ▸ h.baseAligned, by rw [hphase, hcause]; exact h.cause, ?_, ?_, ?_⟩
  · simpa only [State.nPorts, hports, List.length_set] using h.portCount
  · exact fun m => (seqIs_set hk hports).trans (hlock.spins_iff_holds h.lockSpin hspin m)
  · intro hs x hx
    rcases List.mem_or_eq_of_mem_set (hports ▸ hx) with hx | rfl
    · exact h.seedingIdle (hphase ▸ hs) x hx
    · exact hidle (hphase ▸ hs)
  · intro x hx
    rcases List.mem_or_eq_of_mem_set (hports ▸ hx) with hx | rfl
    · exact h.eachPort x hx
    · exact hp

/-- A machine as reset leaves it: every port and the shared state at its reset value (10_state.md R54). -/
theorem Inv.ofReset {s : State} {strap : Bool} {seed : Seed} (hn : 1 ≤ s.nPorts ∧ s.nPorts ≤ 15) (hb : 4096 ∣ s.base)
    (hg : s.g = Shared.reset strap seed) (hports : ∀ q ∈ s.ports, q = Port.reset) : Inv s := by
  refine ⟨hn, hb, by rw [hg]; rfl, ?_, ?_, ?_⟩
  · intro p
    constructor
    · rintro ⟨q, hq, hs⟩
      obtain rfl := hports q (List.mem_of_getElem? hq)
      cases hs
    · intro hl
      rw [hg] at hl
      cases hl
  · rintro - q hq
    rw [hports q hq]; rfl
  · intro q hq
    rw [hports q hq]; exact PortInv.reset

/-! ### Every event keeps the invariant -/

/-- A port in STRICT_SPIN runs GEN_V7_STRICT (20_memory.md R92). -/
theorem decode_fetched_strictSpin {op : Byte} (hf : fetchOpcode .strictSpin = some op) :
    decodeOpcode op = .ok .genV7Strict := by
  obtain rfl := Option.some.inj hf
  rfl

/-- One step of a command keeps the invariant; `hrun` says that the port that spins runs GEN_V7_STRICT. -/
theorem commandEffect_keepsInv {i : Instr} {s t : State} (he : CommandEffect i s t) (h : Inv s)
    (hready : s.g.phase = .ready) (hcur : s.env.cur < s.nPorts) (hrun : s.port.seq = .strictSpin → i = .genV7Strict) :
    Inv t := by
  have hport : PortInv s.port := h.eachPort _ (State.port_mem hcur)
  have hq := State.getElem?_cur hcur
  cases he with
  | waits e _ _ => exact h.setEnv e
  | acquires _ hs hl =>
    exact h.replacePort hq rfl rfl rfl rfl (hport.toSpin hs) (by simp [hready]) (hl ▸ .taken rfl)
  | ends e g p err _ herr hp hg =>
    refine h.replacePort hq rfl rfl hg.phase hg.cause (hport.complete hp herr) (fun _ => rfl) ?_
    rcases hg.pair with ⟨hi, hl, -, -⟩ | ⟨-, hs, hl, -⟩
    · have hnot : s.port.seq ≠ .strictSpin := fun hs => hi (hrun hs)
      exact hl ▸ .stays (by simp [hnot])
    · exact hl ▸ .released hs (by simp)
  | fatal e c _ => exact (h.setEnv e).raiseFatal c

theorem portStep_keepsInv {s t : State} {p : Nat} (h : Inv s) (ht : s.portStep p = .next t) : Inv t := by
  rcases portStep_cases ht with ⟨-, rfl⟩ | ⟨hen, op, hf, hrun⟩
  · exact h
  obtain ⟨hready, -, hp⟩ := (portEnabled_iff s p).mp hen
  have h' : Inv (s.withCurrent p) := h.setEnv _
  have hcur : (s.withCurrent p).env.cur < (s.withCurrent p).nPorts := hp
  rcases hrun with ⟨i, hd, he, -⟩ | ⟨x, hd, rfl⟩
  · refine commandEffect_keepsInv he h' hready hcur fun hs => ?_
    rw [hs] at hf
    exact (Except.ok.inj ((decode_fetched_strictSpin hf).symm.trans hd)).symm
  -- IllegalCommand ends like any command but GEN_V7_STRICT, and a spinning port never comes to it.
  · refine commandEffect_keepsInv (illegalCommand_effect (i := .nop) (by decide) _) h' hready hcur fun hs => ?_
    rw [hs] at hf
    cases (decode_fetched_strictSpin hf).symm.trans hd

/-- A write to a port's register, whether or not the port exists (20_memory.md R82, R92, R93). -/
theorem Inv.writePort {s : State} (h : Inv s) (p : Nat) (v : Word) (r : PortReg) :
    Inv { s with ports := s.ports.modify p fun q => q.write s.g.phase v r } := by
  cases hq : s.ports[p]? with
  | none => exact h.congr rfl (by simp [List.modify_eq_set_getElem?, hq]) rfl rfl rfl
  | some q =>
    have hmem := List.mem_of_getElem? hq
    refine h.replacePort hq rfl (p := q.write s.g.phase v r) (by simp [List.modify_eq_set_getElem?, hq]) rfl rfl
      ((h.eachPort q hmem).write _ v r) ?_ (.stays ?_)
    · intro hs
      rcases seq_write q s.g.phase v r with hw | ⟨hready, -, -⟩
      · exact hw.trans (h.seedingIdle hs q hmem)
      · cases hs.symm.trans hready
    · rcases seq_write q s.g.phase v r with hw | ⟨-, hidle, hw⟩
      · rw [hw]
      · simp [hw, hidle, acceptedSeq_ne_strictSpin]

theorem writeReg_keepsInv {s : State} (h : Inv s) (off : Nat) (v : Word) : Inv (s.writeReg off v) := by
  rcases writeReg_cases s off v with ⟨-, clock, seed, hw⟩ | ⟨p, r, hw⟩ | hw <;> rw [hw]
  · exact h.congr rfl rfl rfl rfl rfl
  · exact h.writePort p v r
  · exact h

theorem seedingStep_keepsInv {s : State} (h : Inv s) : Inv s.seedingStep := by
  rcases seedingStep_cases s with hs | ⟨hp, e, -, hs | ⟨seed, hs⟩⟩ <;> rw [hs]
  · exact h
  · exact (h.setEnv e).raiseFatal _
  · exact (h.setEnv e).seedWith hp seed

theorem assertReset_inv {s : State} (h : Inv s) (strap : Bool) : Inv (s.assertReset strap) :=
  Inv.ofReset (by simpa [State.nPorts, State.assertReset] using h.portCount) h.baseAligned rfl
    fun _ hq => List.eq_of_mem_replicate hq

/-- Whatever the event, so whatever the schedule (20_memory.md R96). -/
theorem takeEvent_keepsInv {s t : State} {e : Event} (h : Inv s) (ht : s.takeEvent e = .next t) : Inv t := by
  cases e with
  | read addr bytes =>
    obtain ⟨r, rfl⟩ := busRead_cases ht
    exact h.setEnv _
  | write addr bytes v =>
    rcases busWrite_cases ht with rfl | ⟨off, -, -, rfl⟩
    · exact h.setEnv _
    · exact (writeReg_keepsInv h off v).setEnv _
  | portStep p => exact portStep_keepsInv h ht
  | seedStep => exact Host.Outcome.next.inj ht ▸ seedingStep_keepsInv h
  | reset strap => exact Host.Outcome.next.inj ht ▸ assertReset_inv h strap

/-- Settles O57: State.reset has N_PORTS ports as reset leaves them, and N_PORTS - 1 is an opaque number below 15. -/
theorem invariantHoldsAtReset : Obligations.InvariantHoldsAtReset := by
  have hports : State.reset.ports = List.replicate (Config.extraPorts.val + 1) Port.reset := rfl
  have hn := Config.extraPorts.isLt
  refine Inv.ofReset ?_ ⟨_, rfl⟩ rfl fun q hq => List.eq_of_mem_replicate (hports ▸ hq)
  rw [State.nPorts, hports, List.length_replicate]
  omega

/-- Settles O58: taking the event off the record keeps the invariant, and so does the event. -/
theorem everyStepKeepsTheInvariant : Obligations.EveryStepKeepsTheInvariant :=
  fun s _ h ht => takeEvent_keepsInv (h.setEnv _ : Inv s.afterEvent) ht

end Sys2Proof
end

section
/-! SUPPORT. What a port's step runs, and the order of the last-issued pair along runs without a reset: no event makes it
smaller, and a completed GEN_V7_STRICT makes it larger and writes it into its result. -/

namespace Sys2Proof

open Sys2Proof.Machine

/-! ### The step of a port with a command in progress (20_memory.md R100) -/

theorem port_eq_of_getElem? {s : State} {q : Port} (h : s.ports[s.env.cur]? = some q) : s.port = q := by
  rw [State.port, List.getD_eq_getElem?_getD, h, Option.getD_some]

/-- On a READY block a port whose sequencer holds an opcode runs that opcode. -/
theorem portStep_eq_runOpcode {s : State} {p : Nat} {q : Port} {op : Byte} (hready : s.g.phase = .ready)
    (hq : s.ports[p]? = some q) (hop : fetchOpcode q.seq = some op) : s.portStep p = (s.withCurrent p).runOpcode op := by
  have hport : (s.withCurrent p).port = q := port_eq_of_getElem? hq
  have hidle : q.seq ≠ .idle := fun h => by rw [h] at hop; cases hop
  have hen : s.portEnabled p = true :=
    (portEnabled_iff s p).mpr ⟨hready, hport ▸ hidle, (List.getElem?_eq_some_iff.mp hq).1⟩
  simp only [State.portStep, hen, hport, hop, if_true]

theorem runOpcode_of_decode_ok {s : State} {op : Byte} {i : Instr} (hd : decodeOpcode op = .ok i) :
    s.runOpcode op = exec i s := by
  rw [State.runOpcode, hd]

theorem runOpcode_of_decode_error {s : State} {op : Byte} {x : DecodeError} (hd : decodeOpcode op = .error x) :
    s.runOpcode op = .next s.illegalCommand := by
  rw [State.runOpcode, hd]

/-- Settles O4: the step takes the event off the record and runs the opcode that SEQ holds. -/
theorem stepRunsTheCommandInProgress : Obligations.StepRunsTheCommandInProgress := by
  intro s p q op hev hready hq hseq
  have hop : fetchOpcode q.seq = some op := by
    rcases hseq with h | ⟨h | h, rfl⟩ <;> rw [h] <;> rfl
  have hstep : step s = (s.afterEvent.withCurrent p).runOpcode op := by
    rw [step, hev]
    exact portStep_eq_runOpcode (s := s.afterEvent) hready hq hop
  have hport : (s.afterEvent.withCurrent p).port = q := port_eq_of_getElem? hq
  refine ⟨fun i hd => hstep.trans (runOpcode_of_decode_ok hd), fun x hd => ?_⟩
  rw [hstep, runOpcode_of_decode_error hd, State.illegalCommand, hport]
  rfl

/-! ### The last-issued pair never decreases (42_generate.md R219, R222) -/

theorem lastPair_eq {s t : State} (hms : t.g.lastMs = s.g.lastMs) (hslot : t.g.lastSlot = s.g.lastSlot) :
    lastPair t = lastPair s := by
  rw [lastPair, hms, hslot, lastPair]

/-- The lexicographic order of the pairs is the order of their 60-bit numbers, as a slot is below 4096. -/
theorem lastPair_lt {s t : State} (h : laterPair t.g.lastMs t.g.lastSlot s.g.lastMs s.g.lastSlot = true) :
    lastPair s < lastPair t := by
  have hs := s.g.lastSlot.isLt
  simp only [laterPair, Bool.or_eq_true, decide_eq_true_eq, Bool.and_eq_true, beq_iff_eq] at h
  unfold lastPair
  rcases h with hms | ⟨hms, hslot⟩
  · omega
  · rw [hms]; omega

theorem commandEffect_lastPair_le {i : Instr} {s t : State} (he : CommandEffect i s t) : lastPair s ≤ lastPair t := by
  cases he with
  | waits e _ _ => exact le_rfl
  | acquires _ _ _ => exact le_rfl
  | ends e g p err _ _ _ hg =>
    rcases hg.pair with ⟨-, -, hms, hslot⟩ | ⟨-, -, -, hlater⟩
    · exact (lastPair_eq (s := s) hms hslot).ge
    · exact (lastPair_lt (s := s) hlater).le
  | fatal e c _ => exact le_rfl

/-- Only reset makes the last-issued pair smaller (10_state.md R36). -/
theorem takeEvent_lastPair_le {s t : State} {e : Event} (hr : isReset e = false) (ht : s.takeEvent e = .next t) :
    lastPair s ≤ lastPair t := by
  cases e with
  | read addr bytes => obtain ⟨r, rfl⟩ := busRead_cases ht; exact le_rfl
  | write addr bytes v =>
    rcases busWrite_cases ht with rfl | ⟨off, -, -, rfl⟩
    · exact le_rfl
    · rcases writeReg_cases s off v with ⟨-, clock, seed, hw⟩ | ⟨p, r, hw⟩ | hw <;> rw [hw] <;> exact le_rfl
  | portStep p =>
    rcases portStep_cases ht with ⟨-, rfl⟩ | ⟨-, op, -, ⟨i, -, he, -⟩ | ⟨x, -, rfl⟩⟩
    · exact le_rfl
    · exact commandEffect_lastPair_le (s := s.withCurrent p) he
    · exact le_rfl
  | seedStep =>
    obtain rfl := Host.Outcome.next.inj ht
    rcases seedingStep_cases s with hs | ⟨-, e, -, hs | ⟨seed, hs⟩⟩ <;> rw [hs] <;> exact le_rfl
  | reset strap => cases hr

theorem runsWithoutReset_lastPair_le {n : Nat} {s t : State} (h : RunsWithoutReset n s t) : lastPair s ≤ lastPair t := by
  induction n generalizing s with
  | zero => exact (congrArg lastPair h).le
  | succ n ih =>
    obtain ⟨hr, u, hu, hrun⟩ := h
    exact (takeEvent_lastPair_le (s := s.afterEvent) hr hu).trans (ih hrun)

/-! ### A strict completion records a later pair and returns it (42_generate.md R218) -/

/-- The first 8 bytes of a v7 identifier are ms ‖ 0111 ‖ slot. -/
theorem first8_v7Ident (ms : BitVec 48) (slot : BitVec 12) (r : Vector Byte 8) :
    first8 (v7Ident ms slot r) = 65536 * ms.toNat + 0x7000 + slot.toNat := by
  have hnib : ∀ x : BitVec 4, (0x7#4 ++ x).toNat = 0x70 + x.toNat := by decide
  have hms := ms.isLt
  have hslot := slot.isLt
  simp only [first8, v7Ident, byteValues, numberBE, Vector.toList_mk, List.take_succ_cons, List.take_zero, List.map_cons,
    List.map_nil, List.foldl_cons, List.foldl_nil, hnib, BitVec.extractLsb'_toNat, Nat.shiftRight_eq_div_pow]
  omega

/-- A spin step that leaves its port IDLE found a later pair, recorded it and wrote it into ID. -/
theorem strictSpinOn_completes {s : State} {ns : BitVec 64} (hcur : s.env.cur < s.nPorts)
    (hspin : s.port.seq = .strictSpin) (hidle : (s.strictSpinOn ns).port.seq = .idle) :
    lastPair s < lastPair (s.strictSpinOn ns) ∧
      ∃ r, (s.strictSpinOn ns).port.id = v7Ident (s.strictSpinOn ns).g.lastMs (s.strictSpinOn ns).g.lastSlot r := by
  revert hidle
  unfold State.strictSpinOn
  dsimp only
  split
  · intro hidle
    cases hspin.symm.trans hidle
  · split
    · rename_i hlater
      intro _
      refine ⟨lastPair_lt (s := s) hlater, s.fillBytes 8, ?_⟩
      exact congrArg Port.id (State.port_setPort hcur _)
    · intro hidle
      cases hspin.symm.trans hidle

theorem portStep_of_strictSpin {s : State} {p : Nat} {q : Port} (hready : s.g.phase = .ready)
    (hq : s.ports[p]? = some q) (hspin : q.seq = .strictSpin) :
    s.portStep p = .next ((s.withCurrent p).afterNow.strictSpinOn (s.withCurrent p).nowValue) := by
  have hport : (s.withCurrent p).port = q := port_eq_of_getElem? hq
  rw [portStep_eq_runOpcode hready hq (by rw [hspin]; rfl), runOpcode_of_decode_ok (i := .genV7Strict) rfl]
  simp only [exec, execGenV7Strict, hport, hspin]

/-- The same for the port's step, whatever port takes it. -/
theorem portStep_strictSpin_completes {s t : State} {p : Nat} {q q' : Port} (hready : s.g.phase = .ready)
    (hq : s.ports[p]? = some q) (hspin : q.seq = .strictSpin) (ht : s.portStep p = .next t)
    (hq' : t.ports[p]? = some q') (hidle : q'.seq = .idle) :
    lastPair s < lastPair t ∧ ∃ r, q'.id = v7Ident t.g.lastMs t.g.lastSlot r := by
  rw [portStep_of_strictSpin hready hq hspin] at ht
  obtain rfl := Host.Outcome.next.inj ht
  have hnow : (s.withCurrent p).afterNow.port = q := by rw [State.afterNow_port]; exact port_eq_of_getElem? hq
  have hlast : lastPair (s.withCurrent p).afterNow = lastPair s := lastPair_eq (by simp) (by simp)
  have hcur : (s.withCurrent p).afterNow.env.cur < (s.withCurrent p).afterNow.nPorts := by
    simpa [State.nPorts] using (List.getElem?_eq_some_iff.mp hq).1
  obtain rfl := port_eq_of_getElem? (s := (s.withCurrent p).afterNow.strictSpinOn _)
    (by rw [strictSpinOn_env, State.afterNow_cur]; exact hq')
  rw [← hlast]
  exact strictSpinOn_completes hcur (hnow ▸ hspin) hidle

theorem strictCompletion_later {s t : State} {b : Ident} (h : StrictCompletion s t b) :
    lastPair s < lastPair t ∧ ∃ r, b = v7Ident t.g.lastMs t.g.lastSlot r := by
  obtain ⟨p, q, q', hev, hready, hq, hspin, hstep, hq', hidle, rfl⟩ := h
  rw [step, hev] at hstep
  exact portStep_strictSpin_completes (s := s.afterEvent) hready hq hspin hstep hq' hidle

/-- The version nibble stands between the pair's two parts and changes no order (42_generate.md R219). -/
theorem first8_v7Ident_lt {s t : State} (h : lastPair s < lastPair t) (r1 r2 : Vector Byte 8) :
    first8 (v7Ident s.g.lastMs s.g.lastSlot r1) < first8 (v7Ident t.g.lastMs t.g.lastSlot r2) := by
  have hs := s.g.lastSlot.isLt
  have ht := t.g.lastSlot.isLt
  rw [first8_v7Ident, first8_v7Ident]
  unfold lastPair at h
  omega

/-- Settles O30: no event lowers the last-issued pair, each strict completion raises it, and the first 8 bytes of its
result are that pair with the version nibble between. -/
theorem strictResultsStrictlyIncrease : Obligations.StrictResultsStrictlyIncrease := by
  refine ⟨fun n s t h => runsWithoutReset_lastPair_le h, fun n s1 t1 s2 t2 b1 b2 h1 hrun h2 => ?_⟩
  obtain ⟨-, r1, rfl⟩ := strictCompletion_later h1
  obtain ⟨hlater, r2, rfl⟩ := strictCompletion_later h2
  have hpair : lastPair t1 < lastPair t2 := (runsWithoutReset_lastPair_le hrun).trans_lt hlater
  exact ⟨hpair, first8_v7Ident_lt hpair r1 r2⟩

end Sys2Proof
end

section
/-! SUPPORT. What a read and a write of a register give: the address map at the registers' own offsets, the fields of the
two status words, and the test registers. -/

namespace Sys2Proof

open Sys2Proof.Machine

/-! ### An aligned 32-bit access in the register space (20_memory.md R80, R81) -/

theorem offsetOf_base_add (s : State) {off : Nat} (h : off < 4096) : s.offsetOf (s.base + off) = some off := by
  simp [State.offsetOf, h]

theorem accessOk_of_aligned {off : Nat} (h : off % 4 = 0) : accessOk off 4 = true := by simp [accessOk, h]

theorem busRead_at (s : State) {off : Nat} (h : off < 4096) (h4 : off % 4 = 0) :
    s.busRead (s.base + off) 4 = .next (answered s (.data (s.readReg off))) := by
  rw [State.busRead, offsetOf_base_add s h]
  simp only [accessOk_of_aligned h4, if_true]
  rfl

theorem busWrite_at (s : State) {off : Nat} (h : off < 4096) (h4 : off % 4 = 0) (v : Word) :
    s.busWrite (s.base + off) 4 v = .next (answered (s.writeReg off v) .done) := by
  rw [State.busWrite, offsetOf_base_add s h]
  simp only [accessOk_of_aligned h4, if_true]
  rfl

/-! ### The address map at the registers' offsets (20_memory.md R86, R87) -/

theorem targetOf_window (p : Nat) {w : Nat} (hw : w < 0x100) : targetOf (windowOffset p + w) = windowTarget p w := by
  have hge : ¬ windowOffset p + w < 0x100 := by unfold windowOffset; omega
  have hdiv : (windowOffset p + w) / 0x100 - 1 = p := by unfold windowOffset; omega
  have hmod : (windowOffset p + w) % 0x100 = w := by unfold windowOffset; omega
  rw [targetOf, if_neg hge, hdiv, hmod]

theorem globalRegOffset_bounds {r : GlobalReg} (h : r.exists = true) :
    globalRegOffset r < 4096 ∧ globalRegOffset r % 4 = 0 := by
  cases r with
  | testSeed j =>
    have hj : j < 8 := of_decide_eq_true h
    simp only [globalRegOffset]
    omega
  | _ => decide

theorem targetOf_globalRegOffset {r : GlobalReg} (h : r.exists = true) : targetOf (globalRegOffset r) = .global r := by
  cases r with
  | testSeed j =>
    have hseed : ∀ j < 8, targetOf (0x020 + 4 * j) = .global (.testSeed j) := by decide
    exact hseed j (of_decide_eq_true h)
  | _ => rfl

theorem readReg_globalRegOffset (s : State) {r : GlobalReg} (h : r.exists = true) :
    s.readReg (globalRegOffset r) = readGlobal s r := by
  rw [State.readReg, targetOf_globalRegOffset h, readTarget]

theorem readReg_status {s : State} {p : Nat} {q : Port} (hq : s.ports[p]? = some q) :
    s.readReg (windowOffset p + 4) = statusWord s.g q := by
  have htarget : targetOf (windowOffset p + 4) = .port p .status := targetOf_window p (by decide)
  simp only [State.readReg, htarget, readTarget, hq, readPort]

/-! ### The fields of the status words (10_state.md R48, R49) -/

theorem isBusy_eq_decide (q : Port) : q.isBusy = decide (q.seq ≠ .idle) := by
  cases h : q.seq <;> simp [Port.isBusy, h]

theorem isWaiting_eq_decide (q : Port) : q.isWaiting = decide (q.seq = .strictAcq ∨ q.seq = .strictSpin) := by
  cases h : q.seq <;> simp [Port.isWaiting, h]

theorem isReady_eq_decide (g : Shared) : g.isReady = decide (g.phase = .ready) := by
  cases h : g.phase <;> simp [Shared.isReady, h]

theorem isFatal_eq_decide (g : Shared) : g.isFatal = decide (g.phase = .fatal) := by
  cases h : g.phase <;> simp [Shared.isFatal, h]

-- A status word is typed by its 32 bits; `change` shows it as the concatenation that the lemmas on `++` speak of.
theorem statusWord_bits (g : Shared) (q : Port) :
    (statusWord g q).getLsbD 0 = q.isBusy ∧ (statusWord g q).getLsbD 1 = q.done ∧ (statusWord g q).getLsbD 2 = q.ovr ∧
      (statusWord g q).getLsbD 3 = false ∧ (statusWord g q).getLsbD 8 = g.isReady ∧
      (statusWord g q).getLsbD 9 = g.isFatal ∧ (statusWord g q).getLsbD 10 = q.isWaiting := by
  refine ⟨?_, ?_, ?_, ?_, ?_, ?_, ?_⟩ <;> change BitVec.getLsbD (w := _ + _) (_ ++ _) _ = _ <;>
    simp only [BitVec.getLsbD_append] <;> simp

theorem statusWord_fields (g : Shared) (q : Port) :
    (statusWord g q).extractLsb' 4 4 = q.err ∧ (statusWord g q).extractLsb' 11 21 = 0 := by
  refine ⟨?_, ?_⟩ <;> change BitVec.extractLsb' (n := _ + _) _ _ (_ ++ _) = _ <;>
    simp (disch := decide) only [BitVec.extractLsb'_append_eq_of_le, BitVec.extractLsb'_append_eq_of_add_le] <;> simp

theorem gstatusWord_bits (g : Shared) (n : Nat) :
    (gstatusWord g n).getLsbD 0 = g.isReady ∧ (gstatusWord g n).getLsbD 1 = g.isFatal ∧
      (gstatusWord g n).getLsbD 2 = g.testMode ∧ (gstatusWord g n).getLsbD 3 = g.lock.isSome := by
  refine ⟨?_, ?_, ?_, ?_⟩ <;> change BitVec.getLsbD (w := _ + _) (_ ++ _) _ = _ <;>
    simp only [BitVec.getLsbD_append] <;> simp

theorem gstatusWord_fields (g : Shared) (n : Nat) :
    (gstatusWord g n).extractLsb' 4 4 = g.fatalCause ∧
      (gstatusWord g n).extractLsb' 8 4 = BitVec.ofNat 4 (g.lock.getD 0) ∧ (gstatusWord g n).extractLsb' 12 4 = 0 ∧
      (gstatusWord g n).extractLsb' 16 4 = BitVec.ofNat 4 n ∧ (gstatusWord g n).extractLsb' 20 12 = 0 := by
  refine ⟨?_, ?_, ?_, ?_, ?_⟩ <;> change BitVec.extractLsb' (n := _ + _) _ _ (_ ++ _) = _ <;>
    simp (disch := decide) only [BitVec.extractLsb'_append_eq_of_le, BitVec.extractLsb'_append_eq_of_add_le] <;> simp

theorem toNat_ofNat_four {n : Nat} (h : n < 16) : (BitVec.ofNat 4 n).toNat = n := by
  rw [BitVec.toNat_ofNat, Nat.mod_eq_of_lt h]

theorem lock_index_lt {lock : Option Nat} (h : ∀ p, lock = some p → p < 16) : lock.getD 0 < 16 := by
  cases lock with
  | none => decide
  | some p => exact h p rfl

theorem eq_reset_of_mem_reset_ports {q : Port} (h : q ∈ State.reset.ports) : q = Port.reset := by
  have hports : State.reset.ports = List.replicate (Config.extraPorts.val + 1) Port.reset := rfl
  exact List.eq_of_mem_replicate (hports ▸ h)

/-- A step of a command leaves its port's ERR, or writes a legal code (10_state.md R48). -/
theorem commandEffect_err_legal {i : Instr} {s t : State} {q q' : Port} (he : CommandEffect i s t)
    (hq : s.ports[s.env.cur]? = some q) (hq' : t.ports[s.env.cur]? = some q') (herr : q.err ∈ [0, 1, 2, 3, 4, 5, 8]) :
    q'.err ∈ [0, 1, 2, 3, 4, 5, 8] := by
  have hcur : s.env.cur < s.ports.length := (List.getElem?_eq_some_iff.mp hq).1
  cases he with
  | waits e _ _ => exact Option.some.inj (hq.symm.trans hq') ▸ herr
  | acquires _ _ _ =>
    obtain rfl : ({ s.port with seq := .strictSpin } : Port) = q' := by simpa [hcur] using hq'
    exact (port_eq_of_getElem? hq).symm ▸ herr
  | ends e g p err _ herr' _ _ =>
    obtain rfl : p.complete err = q' := by simpa [hcur] using hq'
    exact herr'
  | fatal e c _ => exact Option.some.inj (hq.symm.trans hq') ▸ herr

/-- Settles O12: a read of the two registers gives the status words, whose fields stand where the tables put them. -/
theorem statusRegistersShowTheirFields : Obligations.StatusRegistersShowTheirFields := by
  refine ⟨fun s p q hp => ?_, fun q hq => ?_, fun i s t q q' hq herr ht hq' => ?_, fun s hn hlock => ?_⟩
  · obtain ⟨hq, hp⟩ := hp
    have hread := busRead_at s (off := windowOffset p + 4) (by unfold windowOffset; omega) (by unfold windowOffset; omega)
    rw [readReg_status hq, ← Nat.add_assoc] at hread
    obtain ⟨hbusy, hdone, hovr, hzero, hready, hfatal, hwaiting⟩ := statusWord_bits s.g q
    obtain ⟨herr, hhigh⟩ := statusWord_fields s.g q
    exact ⟨_, hread, hbusy.trans (isBusy_eq_decide q), hdone, hovr, hzero, herr, hready.trans (isReady_eq_decide _),
      hfatal.trans (isFatal_eq_decide _), hwaiting.trans (isWaiting_eq_decide q), hhigh⟩
  · rw [eq_reset_of_mem_reset_ports hq]
    rfl
  · obtain ⟨u, hu, he⟩ := exec_effect i s
    obtain rfl := Host.Outcome.next.inj (ht.symm.trans hu)
    exact commandEffect_err_legal he hq hq' herr
  · have hread := busRead_at s (off := globalRegOffset .gstatus) (by decide) (by decide)
    rw [readReg_globalRegOffset s rfl] at hread
    obtain ⟨hready, hfatal, htest, hlocked⟩ := gstatusWord_bits s.g s.nPorts
    obtain ⟨hcause, hholder, hzero, hports, hhigh⟩ := gstatusWord_fields s.g s.nPorts
    exact ⟨_, hread, hready.trans (isReady_eq_decide _), hfatal.trans (isFatal_eq_decide _), htest, hlocked, hcause,
      (congrArg BitVec.toNat hholder).trans (toNat_ofNat_four (lock_index_lt hlock)), hzero,
      (congrArg BitVec.toNat hports).trans (toNat_ofNat_four (by omega)), hhigh⟩

/-! ### The test registers (10_state.md R38, 20_memory.md R82) -/

@[simp] theorem loWord_setLoWord (x : BitVec 64) (v : Word) : loWord (setLoWord x v) = v :=
  BitVec.extractLsb'_append_eq_right

@[simp] theorem hiWord_setLoWord (x : BitVec 64) (v : Word) : hiWord (setLoWord x v) = hiWord x :=
  BitVec.extractLsb'_append_eq_left

@[simp] theorem loWord_setHiWord (x : BitVec 64) (v : Word) : loWord (setHiWord x v) = loWord x :=
  BitVec.extractLsb'_append_eq_right

@[simp] theorem hiWord_setHiWord (x : BitVec 64) (v : Word) : hiWord (setHiWord x v) = v :=
  BitVec.extractLsb'_append_eq_left

theorem byteAt_setIfInBounds_self {n : Nat} (x : Vector Byte n) {i : Nat} (y : Byte) (hi : i < n) :
    byteAt (x.setIfInBounds i y) i = y := by simp [byteAt, hi]

theorem byteAt_setIfInBounds_ne {n : Nat} (x : Vector Byte n) {i k : Nat} (y : Byte) (h : i ≠ k) :
    byteAt (x.setIfInBounds i y) k = byteAt x k := by simp [byteAt, h]

theorem append_bytes_of_word (v : Word) :
    v.extractLsb' 24 8 ++ v.extractLsb' 16 8 ++ v.extractLsb' 8 8 ++ v.extractLsb' 0 8 = v := by
  rw [BitVec.extractLsb'_append_extractLsb'_eq_extractLsb' (by decide),
    BitVec.extractLsb'_append_extractLsb'_eq_extractLsb' (by decide),
    BitVec.extractLsb'_append_extractLsb'_eq_extractLsb' (by decide)]
  exact BitVec.extractLsb'_eq_self

theorem laneWord_setLaneWord_self {n : Nat} (x : Vector Byte n) {j : Nat} (v : Word) (hj : 4 * j + 3 < n) :
    laneWord (setLaneWord x j v) j = v := by
  simp (disch := omega) only [laneWord, setLaneWord, byteAt_setIfInBounds_self, byteAt_setIfInBounds_ne,
    append_bytes_of_word]

theorem laneWord_setLaneWord_ne {n : Nat} (x : Vector Byte n) {j k : Nat} (v : Word) (h : j ≠ k) :
    laneWord (setLaneWord x j v) k = laneWord x k := by
  simp (disch := omega) only [laneWord, setLaneWord, byteAt_setIfInBounds_ne]

/-- The three kinds of test register: the ones that a write can change (20_memory.md R86). -/
def IsTestReg (r : GlobalReg) : Prop := r = .testClockLo ∨ r = .testClockHi ∨ ∃ j, r = .testSeed j

/-- A write to a global register can change the test registers only. -/
theorem writeGlobal_eq (g : Shared) (v : Word) (r : GlobalReg) :
    writeGlobal g v r =
      { g with testClock := (writeGlobal g v r).testClock, testSeed := (writeGlobal g v r).testSeed } := by
  cases r with
  | gstatus | lastLo | lastHi => rfl
  | testClockLo | testClockHi | testSeed j => simp only [writeGlobal]; split <;> rfl

theorem loWord_testClock_writeGlobal (g : Shared) (v : Word) {r : GlobalReg} (h : r ≠ .testClockLo) :
    loWord (writeGlobal g v r).testClock = loWord g.testClock := by
  cases r with
  | testClockLo => exact absurd rfl h
  | testClockHi => simp only [writeGlobal]; split <;> simp
  | testSeed j => simp only [writeGlobal]; split <;> rfl
  | gstatus | lastLo | lastHi => rfl

theorem hiWord_testClock_writeGlobal (g : Shared) (v : Word) {r : GlobalReg} (h : r ≠ .testClockHi) :
    hiWord (writeGlobal g v r).testClock = hiWord g.testClock := by
  cases r with
  | testClockHi => exact absurd rfl h
  | testClockLo => simp only [writeGlobal]; split <;> simp
  | testSeed j => simp only [writeGlobal]; split <;> rfl
  | gstatus | lastLo | lastHi => rfl

theorem laneWord_testSeed_writeGlobal (g : Shared) (v : Word) {r : GlobalReg} {k : Nat} (h : r ≠ .testSeed k) :
    laneWord (writeGlobal g v r).testSeed k = laneWord g.testSeed k := by
  cases r with
  | testSeed j =>
    have hjk : j ≠ k := fun hjk => h (congrArg _ hjk)
    simp only [writeGlobal]
    split
    · exact laneWord_setLaneWord_ne _ v hjk
    · rfl
  | testClockLo | testClockHi => simp only [writeGlobal]; split <;> rfl
  | gstatus | lastLo | lastHi => rfl

theorem readGlobal_writeGlobal_self (s : State) (v : Word) {r : GlobalReg} (hr : r.exists = true) (htest : IsTestReg r)
    (hmode : s.g.testMode = true) : readGlobal { s with g := writeGlobal s.g v r } r = v := by
  rcases htest with rfl | rfl | ⟨j, rfl⟩
  · simp [readGlobal, writeGlobal, hmode]
  · simp [readGlobal, writeGlobal, hmode]
  · have hj : j < 8 := of_decide_eq_true hr
    simp [readGlobal, writeGlobal, hmode, laneWord_setLaneWord_self _ v (show 4 * j + 3 < 32 by omega)]

theorem readGlobal_writeGlobal_ne (s : State) (v : Word) {r r' : GlobalReg} (hne : r' ≠ r) :
    readGlobal { s with g := writeGlobal s.g v r } r' = readGlobal s r' := by
  have hmode : (writeGlobal s.g v r).testMode = s.g.testMode := by rw [writeGlobal_eq]
  cases r' with
  | testClockLo => simp only [readGlobal, hmode, loWord_testClock_writeGlobal s.g v hne.symm]
  | testClockHi => simp only [readGlobal, hmode, hiWord_testClock_writeGlobal s.g v hne.symm]
  | testSeed k => simp only [readGlobal, hmode, laneWord_testSeed_writeGlobal s.g v hne.symm]
  | gstatus | lastLo | lastHi => rw [writeGlobal_eq]; rfl

theorem readGlobal_production {s : State} {r : GlobalReg} (htest : IsTestReg r) (hmode : s.g.testMode = false) :
    readGlobal s r = 0 := by
  rcases htest with rfl | rfl | ⟨j, rfl⟩ <;> simp [readGlobal, hmode]

theorem writeGlobal_production {g : Shared} (v : Word) (r : GlobalReg) (hmode : g.testMode = false) :
    writeGlobal g v r = g := by
  cases r <;> simp [writeGlobal, hmode]

theorem writeReg_globalRegOffset (s : State) {r : GlobalReg} (hr : r.exists = true) (v : Word) :
    s.writeReg (globalRegOffset r) v = { s with g := writeGlobal s.g v r } := by
  rw [State.writeReg, targetOf_globalRegOffset hr]
  rfl

/-- Settles O14: in test mode a write changes one word of the test registers, in production nothing. -/
theorem testRegistersFollowTheStrap : Obligations.TestRegistersFollowTheStrap := by
  intro s r v hr htest addr
  obtain ⟨hlt, haligned⟩ := globalRegOffset_bounds hr
  have hwrite : s.busWrite addr 4 v = .next (answered { s with g := writeGlobal s.g v r } .done) := by
    rw [busWrite_at s hlt haligned, writeReg_globalRegOffset s hr]
  refine ⟨fun hmode => ?_, fun hmode => ?_⟩
  · exact ⟨writeGlobal s.g v r, hwrite, writeGlobal_eq s.g v r, readGlobal_writeGlobal_self s v hr htest hmode,
      fun r' _ hne => readGlobal_writeGlobal_ne s v hne⟩
  · rw [writeGlobal_production v r hmode] at hwrite
    rw [busRead_at s hlt haligned, readReg_globalRegOffset s hr, readGlobal_production htest hmode]
    exact ⟨hwrite, rfl⟩

end Sys2Proof
end

section
/-! SUPPORT. What reset sets, what a halted block keeps, and that a command neither writes nor reads another port. -/

namespace Sys2Proof

open Sys2Proof.Machine

/-- Settles O15: reset puts the shared state and every port at their reset values. -/
theorem resetSetsTheListedValues : Obligations.ResetSetsTheListedValues := by
  refine ⟨fun s strap => ⟨s.assertReset strap, rfl, rfl, ?_, rfl, fun q hq => ?_⟩, fun seed => rfl, fun q hq => ?_⟩
  · simp [State.nPorts, State.assertReset]
  · rw [List.eq_of_mem_replicate hq]
    rfl
  · rw [eq_reset_of_mem_reset_ports hq]
    rfl

/-! ### A halted block (60_exceptions.md R360) -/

/-- A port keeps its sequencer and its completion, and all but OVR while its command is in progress. -/
structure HaltedPort (q q' : Port) : Prop where
  seq : q'.seq = q.seq
  done : q'.done = q.done
  err : q'.err = q.err
  busy : q.seq ≠ .idle → q' = { q with ovr := q'.ovr }

/-- The block keeps all but the test registers, and every port is halted. -/
structure Halted (s t : State) : Prop where
  shared : t.g = { s.g with testClock := t.g.testClock, testSeed := t.g.testSeed }
  count : t.nPorts = s.nPorts
  ports : ∀ (p : Nat) (q : Port), s.ports[p]? = some q → ∃ q', t.ports[p]? = some q' ∧ HaltedPort q q'

theorem HaltedPort.refl (q : Port) : HaltedPort q q := ⟨rfl, rfl, rfl, fun _ => rfl⟩

theorem Halted.ofSamePorts {s t : State} (hports : t.ports = s.ports)
    (hg : t.g = { s.g with testClock := t.g.testClock, testSeed := t.g.testSeed }) : Halted s t :=
  ⟨hg, by rw [State.nPorts, State.nPorts, hports], fun _ q hq => ⟨q, hports ▸ hq, .refl q⟩⟩

/-- No command is accepted outside READY (20_memory.md R92). -/
theorem write_halted (q : Port) {phase : Phase} (hphase : phase ≠ .ready) (v : Word) (r : PortReg) :
    HaltedPort q (q.write phase v r) := by
  rcases q.write_cases phase v r with ⟨-, hr, -, -⟩ | ⟨-, -, hw⟩ | ⟨-, hi, id, ibuf, ilen, argNs, argVer, hw⟩ | ⟨-, hw⟩
  · exact absurd hr hphase
  · rw [hw]; exact ⟨rfl, rfl, rfl, fun _ => rfl⟩
  · rw [hw]; exact ⟨rfl, rfl, rfl, fun hb => absurd hi hb⟩
  · rw [hw]; exact .refl q

theorem writePort_halted {s : State} (hphase : s.g.phase ≠ .ready) (p : Nat) (v : Word) (r : PortReg) :
    Halted s { s with ports := s.ports.modify p fun q => q.write s.g.phase v r } := by
  refine ⟨rfl, by simp [State.nPorts], fun k q hq => ?_⟩
  by_cases hk : p = k
  · exact ⟨q.write s.g.phase v r, by simp [hk, hq], write_halted q hphase v r⟩
  · exact ⟨q, by simp [hk, hq], .refl q⟩

theorem portStep_halted {s t : State} {p : Nat} (hphase : s.g.phase ≠ .ready) (ht : s.portStep p = .next t) : t = s := by
  rcases portStep_cases ht with ⟨-, rfl⟩ | ⟨hen, -⟩
  · rfl
  · exact absurd ((portEnabled_iff s p).mp hen).1 hphase

theorem seedingStep_halted {s : State} (hphase : s.g.phase ≠ .seeding) : s.seedingStep = s := by
  rcases seedingStep_cases s with hs | ⟨hp, -⟩
  · exact hs
  · exact absurd hp hphase

theorem takeEvent_halted {s t : State} {e : Event} (hfatal : s.g.phase = .fatal) (hr : isReset e = false)
    (ht : s.takeEvent e = .next t) : Halted s t := by
  have hready : s.g.phase ≠ .ready := by rw [hfatal]; decide
  cases e with
  | read addr bytes => obtain ⟨r, rfl⟩ := busRead_cases ht; exact .ofSamePorts rfl rfl
  | write addr bytes v =>
    rcases busWrite_cases ht with rfl | ⟨off, -, -, rfl⟩
    · exact .ofSamePorts rfl rfl
    · rcases writeReg_cases s off v with ⟨-, clock, seed, hw⟩ | ⟨p, r, hw⟩ | hw <;> rw [hw]
      · exact .ofSamePorts rfl rfl
      · obtain ⟨hg, hn, hports⟩ := writePort_halted hready p v r
        exact ⟨hg, hn, hports⟩
      · exact .ofSamePorts rfl rfl
  | portStep p => obtain rfl := portStep_halted hready ht; exact .ofSamePorts rfl rfl
  | seedStep =>
    obtain rfl := Host.Outcome.next.inj ht
    rw [seedingStep_halted (by rw [hfatal]; decide)]
    exact .ofSamePorts rfl rfl
  | reset strap => cases hr

/-- Settles O53: in FATAL no agent has a step, and a bus write reaches only test registers, OVR and idle operands. -/
theorem fatalStopsEveryAgentUntilReset : Obligations.FatalStopsEveryAgentUntilReset := by
  intro s t e hfatal hr ht
  obtain ⟨hg, hn, hports⟩ := takeEvent_halted hfatal hr ht
  refine ⟨hg, ?_, hn, fun p q hq => ?_⟩
  · rintro (⟨p, rfl⟩ | rfl)
    · exact portStep_halted (by rw [hfatal]; decide) ht
    · exact (Host.Outcome.next.inj ht).symm.trans (seedingStep_halted (by rw [hfatal]; decide))
  · obtain ⟨q', hq', hseq, hdone, herr, hbusy⟩ := hports p q hq
    exact ⟨q', hq', hseq, hdone, herr, hbusy⟩

/-! ### A command writes its own port only (10_state.md R31) -/

theorem exec_keeps_others {i : Instr} {s t : State} (ht : exec i s = .next t) :
    t.base = s.base ∧ t.nPorts = s.nPorts ∧ t.env.cur = s.env.cur ∧ ∀ p, p ≠ s.env.cur → t.ports[p]? = s.ports[p]? := by
  obtain ⟨u, hu, he⟩ := exec_effect i s
  obtain rfl := Host.Outcome.next.inj (ht.symm.trans hu)
  cases he with
  | waits e _ hc => exact ⟨rfl, rfl, hc, fun _ _ => rfl⟩
  | acquires _ _ _ => exact ⟨rfl, State.setPort_nPorts _ _, rfl, fun p hp => State.setPort_ports_ne _ _ hp⟩
  | ends e g p err hc _ _ _ => exact ⟨rfl, s.setPort_nPorts _, hc, fun k hk => s.setPort_ports_ne _ hk⟩
  | fatal e c hc => exact ⟨rfl, rfl, hc, fun _ _ => rfl⟩

/-! ### A command reads its own port only (60_exceptions.md R377) -/

/-- All that a command may read is the same in both states: the shared state, the outside world, and the current port,
which exists. -/
structure SameView (s1 s2 : State) : Prop where
  shared : s1.g = s2.g
  env : s1.env = s2.env
  exists1 : s1.env.cur < s1.nPorts
  exists2 : s2.env.cur < s2.nPorts
  port : s1.port = s2.port

theorem SameView.ite {c : Prop} [Decidable c] {a1 a2 b1 b2 : State} (ha : SameView a1 a2) (hb : SameView b1 b2) :
    SameView (if c then a1 else b1) (if c then a2 else b2) := by
  split
  · exact ha
  · exact hb

section
variable {s1 s2 : State} (h : SameView s1 s2)
include h

theorem SameView.nowValue : s1.nowValue = s2.nowValue := by
  simp only [State.nowValue, State.clockValue, h.shared, h.env]

theorem SameView.fillBytes (n : Nat) : s1.fillBytes n = s2.fillBytes n := by simp only [State.fillBytes, h.shared]

theorem SameView.setPort {p1 p2 : Port} (hp : p1 = p2) : SameView (s1.setPort p1) (s2.setPort p2) :=
  ⟨h.shared, h.env, by simpa using h.exists1, by simpa using h.exists2,
    by rw [State.port_setPort h.exists1, State.port_setPort h.exists2, hp]⟩

theorem SameView.setShared {g1 g2 : Shared} (hg : g1 = g2) : SameView (s1.setShared g1) (s2.setShared g2) :=
  ⟨hg, h.env, h.exists1, h.exists2, h.port⟩

theorem SameView.completeWith {p1 p2 : Port} (hp : p1 = p2) : SameView (s1.completeWith p1) (s2.completeWith p2) :=
  h.setPort (congrArg (Port.complete · 0) hp)

theorem SameView.illegalCommand : SameView s1.illegalCommand s2.illegalCommand :=
  h.setPort (congrArg (Port.complete · illegalCommandCode) h.port)

theorem SameView.finishParse {r1 r2 : Except ParseError Ident} (hr : r1 = r2) :
    SameView (s1.finishParse r1) (s2.finishParse r2) := by
  subst hr
  cases r1 with
  | ok b => exact h.completeWith (by rw [h.port])
  | error e => exact h.setPort (congrArg (Port.fail · e) h.port)

theorem SameView.formatStep (f : Ident → List Byte) :
    SameView (s1.formatStep (f s1.port.id)) (s2.formatStep (f s2.port.id)) := h.completeWith (by rw [h.port])

theorem SameView.shiftStep (k : Nat) : SameView (s1.shiftStep k) (s2.shiftStep k) := h.completeWith (by rw [h.port])

theorem SameView.unshiftStep (k : Nat) : SameView (s1.unshiftStep k) (s2.unshiftStep k) :=
  h.completeWith (by rw [h.port])

theorem SameView.raiseFatal (c : FatalCause) : SameView (s1.raiseFatal c) (s2.raiseFatal c) :=
  h.setShared (by rw [h.shared])

theorem SameView.afterFill (n : Nat) : SameView (s1.afterFill n) (s2.afterFill n) := h.setShared (by rw [h.shared])

theorem SameView.afterNow : SameView s1.afterNow s2.afterNow := by
  have hclock : SameView s1.afterClock s2.afterClock :=
    ⟨h.shared, by simp only [State.afterClock, State.setEnv_env, h.env], h.exists1, h.exists2, h.port⟩
  unfold State.afterNow
  rw [h.shared]
  exact .ite h hclock

theorem SameView.completeV7 (ns : BitVec 64) : SameView (s1.completeV7 ns) (s2.completeV7 ns) :=
  (h.afterFill 8).completeWith (by rw [h.port, h.fillBytes])

theorem SameView.generateV7 {n1 n2 : BitVec 64} (hn : n1 = n2) : SameView (s1.generateV7 n1) (s2.generateV7 n2) := by
  subst hn
  unfold State.generateV7
  exact .ite (h.raiseFatal _) (h.completeV7 n1)

theorem SameView.strictAcquire : SameView s1.strictAcquire s2.strictAcquire := by
  unfold State.strictAcquire
  rw [h.shared]
  cases s2.g.lock with
  | none => exact (h.setShared (by rw [h.env])).setPort (by rw [h.port])
  | some p => exact h

theorem SameView.strictSpinOn {n1 n2 : BitVec 64} (hn : n1 = n2) : SameView (s1.strictSpinOn n1) (s2.strictSpinOn n2) := by
  subst hn
  unfold State.strictSpinOn
  dsimp only
  rw [h.shared]
  exact .ite (h.raiseFatal _) (.ite ((h.setShared rfl).completeV7 n1) h)

theorem SameView.genV7Strict :
    ∃ t1 t2, execGenV7Strict s1 = .next t1 ∧ execGenV7Strict s2 = .next t2 ∧ SameView t1 t2 := by
  refine ⟨_, _, rfl, rfl, ?_⟩
  rw [h.port]
  cases s2.port.seq with
  | strictAcq => exact h.strictAcquire
  | strictSpin => exact h.afterNow.strictSpinOn h.nowValue
  | idle | busy op => exact h

theorem SameView.testReseed :
    ∃ t1 t2, execTestReseed s1 = .next t1 ∧ execTestReseed s2 = .next t2 ∧ SameView t1 t2 := by
  refine ⟨_, _, rfl, rfl, ?_⟩
  rw [h.shared]
  exact .ite ((h.setShared rfl).completeWith h.port) h.illegalCommand

/-- One step of any command keeps what a command may read the same. -/
theorem SameView.exec (i : Instr) : ∃ t1 t2, exec i s1 = .next t1 ∧ exec i s2 = .next t2 ∧ SameView t1 t2 := by
  cases i
  case nop => exact ⟨_, _, rfl, rfl, h.completeWith h.port⟩
  case genV4 => exact ⟨_, _, rfl, rfl, (h.afterFill 16).completeWith (by rw [h.port, h.fillBytes])⟩
  case genV7 => exact ⟨_, _, rfl, rfl, h.afterNow.generateV7 h.nowValue⟩
  case genV7At => exact ⟨_, _, rfl, rfl, h.generateV7 (by rw [h.port])⟩
  case genV7Strict => exact h.genV7Strict
  case getVersion => exact ⟨_, _, rfl, rfl, h.completeWith (by rw [h.port])⟩
  case getVariant => exact ⟨_, _, rfl, rfl, h.completeWith (by rw [h.port])⟩
  case getTime => exact ⟨_, _, rfl, rfl, h.completeWith (by rw [h.port])⟩
  case shift => exact ⟨_, _, rfl, rfl, h.shiftStep 0⟩
  case shiftB32 => exact ⟨_, _, rfl, rfl, h.shiftStep 1⟩
  case shiftB64 => exact ⟨_, _, rfl, rfl, h.shiftStep 2⟩
  case unshift => exact ⟨_, _, rfl, rfl, h.unshiftStep 0⟩
  case unshiftB32 => exact ⟨_, _, rfl, rfl, h.unshiftStep 1⟩
  case unshiftB64 => exact ⟨_, _, rfl, rfl, h.unshiftStep 2⟩
  case parse => exact ⟨_, _, rfl, rfl, h.finishParse (by rw [h.port])⟩
  case parseShort => exact ⟨_, _, rfl, rfl, h.finishParse (by rw [h.port])⟩
  case fromBytes => exact ⟨_, _, rfl, rfl, h.finishParse (by rw [h.port])⟩
  case fmtCanonical => exact ⟨_, _, rfl, rfl, h.formatStep canonicalText⟩
  case fmtC32 => exact ⟨_, _, rfl, rfl, h.formatStep compact32Text⟩
  case fmtC64 => exact ⟨_, _, rfl, rfl, h.formatStep compact64Text⟩
  case fmtShort => exact ⟨_, _, rfl, rfl, h.formatStep shortText⟩
  case fmtRaw => exact ⟨_, _, rfl, rfl, h.formatStep Vector.toList⟩
  case fmtJson => exact ⟨_, _, rfl, rfl, h.formatStep jsonText⟩
  case testReseed => exact h.testReseed

end

/-- Settles O55: of the ports, a command's step writes and reads the current one only. -/
theorem commandsTouchOnlyTheirOwnPort : Obligations.CommandsTouchOnlyTheirOwnPort := by
  refine ⟨fun i s t ht => ?_, fun i s1 s2 q hg henv hq1 hq2 => ?_⟩
  · obtain ⟨hbase, hn, -, hothers⟩ := exec_keeps_others ht
    exact ⟨hbase, hn, hothers⟩
  · have hview : SameView s1 s2 :=
      ⟨hg, henv, (List.getElem?_eq_some_iff.mp hq1).1, (List.getElem?_eq_some_iff.mp hq2).1,
        (port_eq_of_getElem? hq1).trans (port_eq_of_getElem? hq2).symm⟩
    obtain ⟨t1, t2, ht1, ht2, h⟩ := hview.exec i
    obtain ⟨-, -, hcur1, -⟩ := exec_keeps_others ht1
    obtain ⟨-, -, hcur2, -⟩ := exec_keeps_others ht2
    refine ⟨t1, t2, ht1, ht2, h.shared, h.env, ?_⟩
    rw [← hcur1, ← hcur2, State.getElem?_cur h.exists1, State.getElem?_cur h.exists2, h.port]

end Sys2Proof
end

section
/-! SUPPORT. What every bus access and every event answers: the error of a bad access, the repeatable read, the fault
outside the register space, and the step that takes its event. -/

namespace Sys2Proof

open Sys2Proof.Machine

/-! ### A bus access of any width (20_memory.md R80, R81) -/

theorem accessOk_eq_false {off n : Nat} (h : n ≠ 4 ∨ off % 4 ≠ 0) : accessOk off n = false := by
  rcases h with h | h <;> simp [accessOk, h]

theorem busRead_of_not_accessOk (s : State) {off n : Nat} (h : off < 4096) (hbad : accessOk off n = false) :
    s.busRead (s.base + off) n = .next (answered s .error) := by
  rw [State.busRead, offsetOf_base_add s h]
  simp only [hbad]
  rfl

theorem busWrite_of_not_accessOk (s : State) {off n : Nat} (h : off < 4096) (hbad : accessOk off n = false) (v : Word) :
    s.busWrite (s.base + off) n v = .next (answered s .error) := by
  rw [State.busWrite, offsetOf_base_add s h]
  simp only [hbad]
  rfl

/-- Settles O8: the block looks at width and alignment before it reads or writes a register. -/
theorem badAccessGetsABusErrorAndChangesNothing : Obligations.BadAccessGetsABusErrorAndChangesNothing := by
  intro s off n v hoff
  refine ⟨fun h => ?_, fun h4 => ⟨_, busRead_at s hoff h4⟩⟩
  have hbad := accessOk_eq_false h
  exact ⟨busRead_of_not_accessOk s hoff hbad, busWrite_of_not_accessOk s hoff hbad v⟩

/-! ### Reads (20_memory.md R90) -/

theorem busRead_of_offsetOf {s : State} {a off : Nat} (h : s.offsetOf a = some off) (n : Nat) :
    ∃ r, s.busRead a n = .next (answered s r) := by
  rw [State.busRead, h]
  exact ⟨_, rfl⟩

theorem busRead_outside {s : State} {a : Nat} (h : s.offsetOf a = none) (n : Nat) :
    s.busRead a n = .fault (.outsideRegisterSpace a) := by
  rw [State.busRead, h]

/-- No register shows the answer to a bus access (log 8). -/
theorem readReg_answered (s : State) (r : BusResponse) (off : Nat) : (answered s r).readReg off = s.readReg off := by
  unfold State.readReg
  cases targetOf off with
  | global g => cases g <;> rfl
  | port p q => rfl
  | reserved => rfl

/-- A read forgets the answer that stood there before it. -/
theorem busRead_answered (s : State) (r : BusResponse) (a n : Nat) : (answered s r).busRead a n = s.busRead a n := by
  have hoff : (answered s r).offsetOf a = s.offsetOf a := rfl
  unfold State.busRead
  rw [hoff]
  cases s.offsetOf a with
  | none => rfl
  | some off =>
    simp only [readReg_answered]
    rfl

/-- Settles O9: a read replaces the last answer, which no read looks at. -/
theorem readsHaveNoSideEffects : Obligations.ReadsHaveNoSideEffects := by
  intro s t a n ht
  obtain ⟨r, rfl⟩ : ∃ r, t = answered s r := busRead_cases ht
  refine ⟨rfl, (busRead_answered s r a n).trans ht, fun a' n' => ?_⟩
  rw [busRead_answered]
  cases hoff : s.offsetOf a' with
  | none => exact .inr ⟨busRead_outside hoff n', busRead_outside hoff n'⟩
  | some off =>
    obtain ⟨r', hr'⟩ := busRead_of_offsetOf hoff n'
    exact .inl ⟨r', hr', hr'⟩

/-! ### Events in the register space answer (20_memory.md R81, R82, R89) -/

theorem offsetOf_eq_none_iff (s : State) (a : Nat) : s.offsetOf a = none ↔ a < s.base ∨ s.base + 4096 ≤ a := by
  unfold State.offsetOf
  split
  · simp only [reduceCtorEq, false_iff]; omega
  · simp only [true_iff]; omega

theorem busWrite_of_offsetOf {s : State} {a off : Nat} (h : s.offsetOf a = some off) (n : Nat) (v : Word) :
    ∃ t, s.busWrite a n v = .next t := by
  rw [State.busWrite, h]
  exact ⟨_, rfl⟩

theorem busWrite_outside {s : State} {a : Nat} (h : s.offsetOf a = none) (n : Nat) (v : Word) :
    s.busWrite a n v = .fault (.outsideRegisterSpace a) := by
  rw [State.busWrite, h]

theorem runOpcode_answers (s : State) (op : Byte) : ∃ t, s.runOpcode op = .next t := by
  cases hd : decodeOpcode op with
  | ok i =>
    obtain ⟨t, ht, -⟩ := exec_effect i s
    exact ⟨t, (runOpcode_of_decode_ok hd).trans ht⟩
  | error x => exact ⟨_, runOpcode_of_decode_error hd⟩

theorem portStep_answers (s : State) (p : Nat) : ∃ t, s.portStep p = .next t := by
  unfold State.portStep
  split
  · cases fetchOpcode (s.withCurrent p).port.seq with
    | none => exact ⟨_, rfl⟩
    | some op => exact runOpcode_answers _ op
  · exact ⟨_, rfl⟩

theorem takeEvent_answers {s : State} {e : Event} (h : addressesBlock s e = true) : ∃ t, s.takeEvent e = .next t := by
  cases e with
  | read a n =>
    obtain ⟨off, hoff⟩ := Option.isSome_iff_exists.mp h
    obtain ⟨r, hr⟩ := busRead_of_offsetOf hoff n
    exact ⟨_, hr⟩
  | write a n v =>
    obtain ⟨off, hoff⟩ := Option.isSome_iff_exists.mp h
    exact busWrite_of_offsetOf hoff n v
  | portStep p => exact portStep_answers s p
  | seedStep => exact ⟨_, rfl⟩
  | reset strap => exact ⟨_, rfl⟩

theorem takeEvent_faults {s : State} {e : Event} (h : addressesBlock s e = false) :
    ∃ a, s.takeEvent e = .fault (.outsideRegisterSpace a) ∧ s.offsetOf a = none := by
  cases e with
  | read a n =>
    have hoff : s.offsetOf a = none := by simpa [addressesBlock] using h
    exact ⟨a, busRead_outside hoff n, hoff⟩
  | write a n v =>
    have hoff : s.offsetOf a = none := by simpa [addressesBlock] using h
    exact ⟨a, busWrite_outside hoff n v, hoff⟩
  | portStep p => cases h
  | seedStep => cases h
  | reset strap => cases h

/-- Settles O59: only a bus access outside the 4096 bytes faults, and no event is refused. -/
theorem safeEventsNeverFault : Obligations.SafeEventsNeverFault := by
  refine fun s e => ⟨takeEvent_answers, fun h => ?_⟩
  obtain ⟨a, ha, hoff⟩ := takeEvent_faults h
  exact ⟨a, ha, (offsetOf_eq_none_iff s a).mp hoff⟩

/-! ### A step takes its event (20_memory.md R96) -/

theorem step_eq_takeEvent {s : State} {e : Event} (h : s.nextEvent = e) : step s = s.afterEvent.takeEvent e := by
  rw [step, h]

/-- No port steps before READY or after Fatal, and an IDLE or absent port never does (log 3). -/
theorem portStep_disabled {s : State} {p : Nat}
    (h : s.g.phase ≠ .ready ∨ s.ports[p]? = none ∨ ∃ q, s.ports[p]? = some q ∧ q.seq = .idle) :
    s.portStep p = .next s := by
  have hen : s.portEnabled p ≠ true := fun hen => by
    obtain ⟨hready, hbusy, hp⟩ := (portEnabled_iff s p).mp hen
    rcases h with hphase | habsent | ⟨q, hq, hidle⟩
    · exact hphase hready
    · exact absurd hp (Nat.not_lt.mpr (List.getElem?_eq_none_iff.mp habsent))
    · have hport : (s.withCurrent p).port = q := port_eq_of_getElem? hq
      exact hbusy (hport ▸ hidle)
  rw [State.portStep, if_neg hen]

/-- Settles O5: the step takes the event off the record and then takes the event. -/
theorem stepTakesTheNextEvent : Obligations.StepTakesTheNextEvent := by
  intro s s'
  exact ⟨fun a n h => step_eq_takeEvent h, fun a n v h => step_eq_takeEvent h, fun h => step_eq_takeEvent h,
    fun b h => step_eq_takeEvent h, fun p h hdis => (step_eq_takeEvent h).trans (portStep_disabled hdis)⟩

end Sys2Proof
end

section
/-! SUPPORT. The port windows: what a read and a write at a port register's offset do, which registers take a write, and
what every other offset gives. -/

namespace Sys2Proof

open Sys2Proof.Machine

/-! ### The map of a window (20_memory.md R87) -/

theorem portRegOffset_bounds {r : PortReg} (h : r.exists = true) : portRegOffset r < 0x100 ∧ portRegOffset r % 4 = 0 := by
  cases r with
  | id j => have hj : j < 4 := of_decide_eq_true h; simp only [portRegOffset]; omega
  | ibuf j => have hj : j < 16 := of_decide_eq_true h; simp only [portRegOffset]; omega
  | obuf j => have hj : j < 16 := of_decide_eq_true h; simp only [portRegOffset]; omega
  | _ => decide

theorem windowTarget_portRegOffset (p : Nat) {r : PortReg} (h : r.exists = true) :
    windowTarget p (portRegOffset r) = .port p r := by
  cases r with
  | id j => have hj : j < 4 := of_decide_eq_true h; interval_cases j <;> rfl
  | ibuf j => have hj : j < 16 := of_decide_eq_true h; interval_cases j <;> rfl
  | obuf j => have hj : j < 16 := of_decide_eq_true h; interval_cases j <;> rfl
  | _ => rfl

/-- An offset of a window stands for a register of that window's port or is reserved. -/
theorem windowTarget_induction {P : Target → Prop} {p w : Nat} (hreserved : P .reserved) (hport : ∀ r, P (.port p r)) :
    P (windowTarget p w) := by
  unfold windowTarget
  repeat refine iteInduction (fun _ => hport _) fun _ => ?_
  exact hreserved

theorem windowTarget_reserved (p : Nat) {w : Nat} (h : w = 0x3C ∨ 0xC0 ≤ w) : windowTarget p w = .reserved := by
  unfold windowTarget
  simp (disch := omega) only [if_neg]

theorem globalTarget_reserved {off : Nat} (h : off = 0x004 ∨ off = 0x018 ∨ off = 0x01C ∨ 0x040 ≤ off) :
    globalTarget off = .reserved := by
  unfold globalTarget
  simp (disch := omega) only [if_neg]

theorem globalTarget_testReg {off : Nat} (h : off = 0x010 ∨ off = 0x014 ∨ (0x020 ≤ off ∧ off < 0x040)) :
    ∃ r, globalTarget off = .global r ∧ IsTestReg r := by
  rcases h with rfl | rfl | h
  · exact ⟨_, rfl, .inl rfl⟩
  · exact ⟨_, rfl, .inr (.inl rfl)⟩
  · refine ⟨.testSeed ((off - 0x020) / 4), ?_, .inr (.inr ⟨_, rfl⟩)⟩
    unfold globalTarget
    simp (disch := omega) only [if_neg, if_pos h]

theorem targetOf_global {off : Nat} (h : off < 0x100) : targetOf off = globalTarget off := if_pos h

theorem targetOf_of_window {off : Nat} (h : 0x100 ≤ off) :
    targetOf off = windowTarget (off / 0x100 - 1) (off % 0x100) := if_neg (Nat.not_lt.mpr h)

/-! ### Accesses to a register of an existing port -/

theorem port_offset_bounds {p : Nat} (hp : p < 15) {r : PortReg} (hr : r.exists = true) :
    windowOffset p + portRegOffset r < 4096 ∧ (windowOffset p + portRegOffset r) % 4 = 0 := by
  obtain ⟨hlt, h4⟩ := portRegOffset_bounds hr
  unfold windowOffset
  omega

theorem targetOf_portReg (p : Nat) {r : PortReg} (hr : r.exists = true) :
    targetOf (windowOffset p + portRegOffset r) = .port p r :=
  (targetOf_window p (portRegOffset_bounds hr).1).trans (windowTarget_portRegOffset p hr)

theorem busRead_portReg {s : State} {p : Nat} {q : Port} (hp : PortIs s p q) {r : PortReg} (hr : r.exists = true) :
    s.busRead (s.base + windowOffset p + portRegOffset r) 4 = .next (answered s (.data (readPort s.g q r))) := by
  obtain ⟨hq, hp⟩ := hp
  obtain ⟨hlt, h4⟩ := port_offset_bounds hp hr
  have hread : s.readReg (windowOffset p + portRegOffset r) = readPort s.g q r := by
    simp only [State.readReg, targetOf_portReg p hr, readTarget, hq]
  rw [Nat.add_assoc, busRead_at s hlt h4, hread]

theorem busRead_globalReg (s : State) {r : GlobalReg} (hr : r.exists = true) :
    s.busRead (s.base + globalRegOffset r) 4 = .next (answered s (.data (readGlobal s r))) := by
  obtain ⟨hlt, h4⟩ := globalRegOffset_bounds hr
  rw [busRead_at s hlt h4, readReg_globalRegOffset s hr]

theorem busWrite_portReg {s : State} {p : Nat} {q : Port} (hp : PortIs s p q) {r : PortReg} (hr : r.exists = true)
    (v : Word) :
    s.busWrite (s.base + windowOffset p + portRegOffset r) 4 v =
      .next { answered s .done with ports := s.ports.set p (q.write s.g.phase v r) } := by
  obtain ⟨hq, hp⟩ := hp
  obtain ⟨hlt, h4⟩ := port_offset_bounds hp hr
  have hwrite : s.writeReg (windowOffset p + portRegOffset r) v =
      { s with ports := s.ports.set p (q.write s.g.phase v r) } := by
    simp [State.writeReg, targetOf_portReg p hr, writeTarget, List.modify_eq_set_getElem?, hq]
  rw [Nat.add_assoc, busWrite_at s hlt h4, hwrite]
  rfl

/-- A write that leaves the port as it was leaves the block as it was. -/
theorem busWrite_portReg_ignored {s : State} {p : Nat} {q : Port} (hp : PortIs s p q) {r : PortReg}
    (hr : r.exists = true) {v : Word} (hw : q.write s.g.phase v r = q) :
    s.busWrite (s.base + windowOffset p + portRegOffset r) 4 v = .next (answered s .done) := by
  obtain ⟨hlt, hget⟩ := List.getElem?_eq_some_iff.mp hp.1
  have hset : s.ports.set p q = s.ports := hget ▸ List.set_getElem_self hlt
  rw [busWrite_portReg hp hr, hw, hset]
  rfl

/-! ### A write to CMD (20_memory.md R92) -/

theorem write_cmd_accepted {q : Port} {phase : Phase} (h : phase = .ready ∧ q.seq = .idle) (v : Word) :
    q.write phase v .cmd = q.accept (v.extractLsb' 0 8) := by simp only [Port.write, Port.writeCmd, if_true, if_pos h]

theorem write_cmd_dropped {q : Port} {phase : Phase} (h : ¬ (phase = .ready ∧ q.seq = .idle)) (v : Word) :
    q.write phase v .cmd = { q with ovr := true } := by simp only [Port.write, Port.writeCmd, if_true, if_neg h]

theorem acceptedSeq_ne_idle (op : Byte) : acceptedSeq op ≠ .idle := by
  unfold acceptedSeq
  split <;> exact fun h => (by cases h)

theorem statusWord_busy_accept (g : Shared) (q : Port) (op : Byte) : (statusWord g (q.accept op)).getLsbD 0 = true := by
  rw [(statusWord_bits g (q.accept op)).1, isBusy_eq_decide, decide_eq_true_iff]
  exact acceptedSeq_ne_idle op

/-- An opcode outside the map ends in IllegalCommand on the current port (30_encoding.md R113). -/
theorem runOpcode_illegal {s : State} {q : Port} {op : Byte} (hq : s.ports[s.env.cur]? = some q)
    (hop : ∀ i, decodeOpcode op ≠ .ok i) : s.runOpcode op = .next (endedWith s s.g q 8) := by
  cases hd : decodeOpcode op with
  | ok i => exact absurd hd (hop i)
  | error x =>
    rw [runOpcode_of_decode_error hd, State.illegalCommand, port_eq_of_getElem? hq]
    rfl

/-- Settles O6: a CMD write is `Port.accept` on a READY block's idle port, and sets OVR otherwise. -/
theorem commandWriteIsAcceptedOrDropped : Obligations.CommandWriteIsAcceptedOrDropped := by
  refine ⟨fun s p q v hp => ?_, fun s q op hq hop => runOpcode_illegal hq hop⟩
  have hwrite := busWrite_portReg hp (r := .cmd) rfl v
  refine ⟨fun h => ?_, fun h => ?_⟩
  · rw [write_cmd_accepted h] at hwrite
    exact ⟨_, hwrite, rfl, statusWord_busy_accept s.g q _⟩
  · rw [write_cmd_dropped h] at hwrite
    exact hwrite

/-! ### A write to an operand register (20_memory.md R93) -/

theorem write_of_busy {q : Port} {r : PortReg} (hr : r ≠ .cmd) (hbusy : q.seq ≠ .idle) (phase : Phase) (v : Word) :
    q.write phase v r = q := by rw [Port.write, if_neg hr, if_neg hbusy]

theorem write_of_idle {q : Port} {r : PortReg} (hr : r ≠ .cmd) (hidle : q.seq = .idle) (phase : Phase) (v : Word) :
    q.write phase v r = q.writeOperand v r := by rw [Port.write, if_neg hr, if_pos hidle]

/-- A number cut to its low bits and read back is masked with them. -/
theorem setWidth_setWidth_eq_and (v : Word) (n : Nat) :
    (v.setWidth n).setWidth 32 = v &&& (BitVec.allOnes n).setWidth 32 := by
  ext i hi
  simp [hi, Bool.and_comm]

/-- The register kinds that take a host's write (20_memory.md R93). -/
def IsOperandReg (r : PortReg) : Prop :=
  r = .ilen ∨ (∃ j, r = .id j) ∨ r = .argNsLo ∨ r = .argNsHi ∨ r = .argVer ∨ ∃ j, r = .ibuf j

theorem IsOperandReg.ne_cmd {r : PortReg} (h : IsOperandReg r) : r ≠ .cmd := by
  rintro rfl
  simp [IsOperandReg] at h

theorem readPort_writeOperand_self (g : Shared) (q : Port) (v : Word) {r : PortReg} (hr : r.exists = true)
    (hop : IsOperandReg r) :
    readPort g (q.writeOperand v r) r = if r = .ilen then v &&& 0xFF else if r = .argVer then v &&& 0xF else v := by
  rcases hop with rfl | ⟨j, rfl⟩ | rfl | rfl | rfl | ⟨j, rfl⟩
  · exact setWidth_setWidth_eq_and v 8
  · have hj : j < 4 := of_decide_eq_true hr
    exact laneWord_setLaneWord_self q.id v (by omega)
  · exact loWord_setLoWord q.argNs v
  · exact hiWord_setHiWord q.argNs v
  · exact setWidth_setWidth_eq_and v 4
  · have hj : j < 16 := of_decide_eq_true hr
    exact laneWord_setLaneWord_self q.ibuf v (by omega)

/-- A write to an operand register can change the operands only. -/
theorem writeOperand_eq (q : Port) (v : Word) (r : PortReg) :
    q.writeOperand v r =
      q.withOperands (q.writeOperand v r).id (q.writeOperand v r).ibuf (q.writeOperand v r).ilen
        (q.writeOperand v r).argNs (q.writeOperand v r).argVer := by
  cases r <;> rfl

theorem ilen_writeOperand (q : Port) (v : Word) {r : PortReg} (h : r ≠ .ilen) : (q.writeOperand v r).ilen = q.ilen := by
  cases r with
  | ilen => exact absurd rfl h
  | _ => rfl

theorem argVer_writeOperand (q : Port) (v : Word) {r : PortReg} (h : r ≠ .argVer) :
    (q.writeOperand v r).argVer = q.argVer := by
  cases r with
  | argVer => exact absurd rfl h
  | _ => rfl

theorem loWord_argNs_writeOperand (q : Port) (v : Word) {r : PortReg} (h : r ≠ .argNsLo) :
    loWord (q.writeOperand v r).argNs = loWord q.argNs := by
  cases r with
  | argNsLo => exact absurd rfl h
  | argNsHi => exact loWord_setHiWord q.argNs v
  | _ => rfl

theorem hiWord_argNs_writeOperand (q : Port) (v : Word) {r : PortReg} (h : r ≠ .argNsHi) :
    hiWord (q.writeOperand v r).argNs = hiWord q.argNs := by
  cases r with
  | argNsHi => exact absurd rfl h
  | argNsLo => exact hiWord_setLoWord q.argNs v
  | _ => rfl

theorem laneWord_id_writeOperand (q : Port) (v : Word) {r : PortReg} {k : Nat} (h : r ≠ .id k) :
    laneWord (q.writeOperand v r).id k = laneWord q.id k := by
  cases r with
  | id j => exact laneWord_setLaneWord_ne q.id v fun hjk => h (congrArg _ hjk)
  | _ => rfl

theorem laneWord_ibuf_writeOperand (q : Port) (v : Word) {r : PortReg} {k : Nat} (h : r ≠ .ibuf k) :
    laneWord (q.writeOperand v r).ibuf k = laneWord q.ibuf k := by
  cases r with
  | ibuf j => exact laneWord_setLaneWord_ne q.ibuf v fun hjk => h (congrArg _ hjk)
  | _ => rfl

theorem readPort_writeOperand_ne (g : Shared) (q : Port) (v : Word) {r r' : PortReg} (h : r ≠ r') :
    readPort g (q.writeOperand v r) r' = readPort g q r' := by
  cases r' with
  | ilen => exact congrArg (BitVec.setWidth 32) (ilen_writeOperand q v h)
  | argVer => exact congrArg (BitVec.setWidth 32) (argVer_writeOperand q v h)
  | argNsLo => exact loWord_argNs_writeOperand q v h
  | argNsHi => exact hiWord_argNs_writeOperand q v h
  | id k => exact laneWord_id_writeOperand q v h
  | ibuf k => exact laneWord_ibuf_writeOperand q v h
  | _ => rw [writeOperand_eq]; rfl

/-- Settles O7: a busy port drops the write; an idle one stores it in that register and in no other. -/
theorem operandWritesNeedAnIdlePort : Obligations.OperandWritesNeedAnIdlePort := by
  intro s p q r v hp hr hop addr
  have hcmd : r ≠ .cmd := IsOperandReg.ne_cmd hop
  refine ⟨fun hbusy => busWrite_portReg_ignored hp hr (write_of_busy hcmd hbusy _ v), fun hidle => ?_⟩
  refine ⟨q.writeOperand v r, ?_, readPort_writeOperand_self s.g q v hr hop,
    fun r' _ hne => readPort_writeOperand_ne s.g q v hne.symm⟩
  exact write_of_idle hcmd hidle s.g.phase v ▸ busWrite_portReg hp hr v

/-! ### Offsets and registers that ignore a write (20_memory.md R82, R88) -/

/-- The target reads 0 and ignores writes. -/
def ReadsZeroIgnoresWrites (s : State) (t : Target) : Prop := readTarget s t = 0 ∧ ∀ v, writeTarget s v t = s

theorem reserved_readsZero (s : State) : ReadsZeroIgnoresWrites s .reserved := ⟨rfl, fun _ => rfl⟩

theorem reservedGlobal_readsZero (s : State) {off : Nat} (hlt : off < 0x100)
    (h : off = 0x004 ∨ off = 0x018 ∨ off = 0x01C ∨ 0x040 ≤ off) : ReadsZeroIgnoresWrites s (targetOf off) := by
  rw [targetOf_global hlt, globalTarget_reserved h]
  exact reserved_readsZero s

theorem absentPort_readsZero {s : State} {p : Nat} (h : s.nPorts ≤ p) (r : PortReg) :
    ReadsZeroIgnoresWrites s (.port p r) := by
  have hnone : s.ports[p]? = none := List.getElem?_eq_none h
  refine ⟨by simp only [readTarget, hnone], fun v => ?_⟩
  simp [writeTarget, List.modify_eq_set_getElem?, hnone]

theorem testReg_readsZero {s : State} (hmode : s.g.testMode = false) {r : GlobalReg} (htest : IsTestReg r) :
    ReadsZeroIgnoresWrites s (.global r) := by
  refine ⟨readGlobal_production htest hmode, fun v => ?_⟩
  rw [writeTarget, writeGlobal_production v r hmode]
  rfl

theorem absentWindow_readsZero {s : State} {p : Nat} (h : s.nPorts ≤ p) (w : Nat) :
    ReadsZeroIgnoresWrites s (windowTarget p w) :=
  windowTarget_induction (reserved_readsZero s) (absentPort_readsZero h)

theorem access_of_readsZero {s : State} {off : Nat} (h : off < 4096) (h4 : off % 4 = 0)
    (hz : ReadsZeroIgnoresWrites s (targetOf off)) :
    s.busRead (s.base + off) 4 = .next (answered s (.data 0)) ∧
      ∀ v, s.busWrite (s.base + off) 4 v = .next (answered s .done) := by
  obtain ⟨hread, hwrite⟩ := hz
  refine ⟨?_, fun v => ?_⟩
  · rw [busRead_at s h h4, State.readReg, hread]
  · rw [busWrite_at s h h4, State.writeReg, hwrite]

/-- A result register and STATUS are read-only (20_memory.md R88). -/
theorem writeOperand_readOnly (q : Port) (v : Word) {r : PortReg} (hcmd : r ≠ .cmd) (hop : ¬ IsOperandReg r) :
    q.writeOperand v r = q := by
  cases r with
  | cmd => exact absurd rfl hcmd
  | ilen | argNsLo | argNsHi | argVer | id j | ibuf j => exact absurd (by simp [IsOperandReg]) hop
  | _ => rfl

theorem write_readOnly (q : Port) (phase : Phase) (v : Word) {r : PortReg} (hcmd : r ≠ .cmd) (hop : ¬ IsOperandReg r) :
    q.write phase v r = q := by
  by_cases hidle : q.seq = .idle
  · rw [write_of_idle hcmd hidle, writeOperand_readOnly q v hcmd hop]
  · exact write_of_busy hcmd hidle phase v

theorem busWrite_globalReg_readOnly (s : State) (v : Word) {r : GlobalReg} (h : r = .gstatus ∨ r = .lastLo ∨ r = .lastHi) :
    s.busWrite (s.base + globalRegOffset r) 4 v = .next (answered s .done) := by
  have hr : r.exists = true := by rcases h with rfl | rfl | rfl <;> rfl
  have hg : writeGlobal s.g v r = s.g := by rcases h with rfl | rfl | rfl <;> rfl
  obtain ⟨hlt, h4⟩ := globalRegOffset_bounds hr
  rw [busWrite_at s hlt h4, writeReg_globalRegOffset s hr, hg]

/-- Settles O10: each listed offset stands for nothing, for an absent port or for a test register in production, and each
listed register is read-only. -/
theorem writesElsewhereAreIgnored : Obligations.WritesElsewhereAreIgnored := by
  refine ⟨fun s off hlt h4 h => access_of_readsZero hlt h4 ?_, fun s v =>
    ⟨fun r h => busWrite_globalReg_readOnly s v h, fun p q r hp hr h => ?_, fun p q hp => busRead_portReg hp (r := .cmd) rfl⟩⟩
  · rcases h with h | h | h | ⟨hlo, hhi⟩ | ⟨hlo, habsent | hres⟩ | ⟨hmode, htest⟩
    · exact reservedGlobal_readsZero s (by omega) (.inl h)
    · exact reservedGlobal_readsZero s (by omega) (.inr (.inl h))
    · exact reservedGlobal_readsZero s (by omega) (.inr (.inr (.inl h)))
    · exact reservedGlobal_readsZero s hhi (.inr (.inr (.inr hlo)))
    · rw [targetOf_of_window hlo]; exact absentWindow_readsZero habsent _
    · rw [targetOf_of_window hlo, windowTarget_reserved _ hres]; exact reserved_readsZero s
    · obtain ⟨r, ht, hr⟩ := globalTarget_testReg htest
      rw [targetOf_global (by omega), ht]; exact testReg_readsZero hmode hr
  · have hkind : r ≠ .cmd ∧ ¬ IsOperandReg r := by
      rcases h with rfl | rfl | rfl | rfl | rfl | rfl | ⟨j, rfl⟩ <;> simp [IsOperandReg]
    exact busWrite_portReg_ignored hp hr (write_readOnly q _ v hkind.1 hkind.2)

/-! ### The fields of the registers (20_memory.md R84 to R87) -/

theorem toNat_append_eq_add {m n : Nat} (x : BitVec m) (y : BitVec n) : (x ++ y).toNat = x.toNat * 2 ^ n + y.toNat := by
  rw [BitVec.toNat_append, ← Nat.shiftLeft_add_eq_or_of_lt y.isLt, Nat.shiftLeft_eq]

theorem toNat_setWidth_word {n : Nat} (x : BitVec n) (h : n ≤ 32) : (x.setWidth 32).toNat = x.toNat :=
  BitVec.toNat_setWidth_of_le h

/-- The low word of a register holds its number modulo 2^32. -/
theorem toNat_lowWord {n : Nat} (x : BitVec n) : (x.extractLsb' 0 32).toNat = x.toNat % 2 ^ 32 := by
  rw [BitVec.extractLsb'_toNat, Nat.shiftRight_zero]

/-- The bits from 32 up hold the rest. -/
theorem toNat_highPart {m : Nat} (x : BitVec (32 + m)) : (x.extractLsb' 32 m).toNat = x.toNat / 2 ^ 32 := by
  have hlt : x.toNat / 2 ^ 32 < 2 ^ m := Nat.div_lt_of_lt_mul (Nat.pow_add .. ▸ x.isLt)
  rw [BitVec.extractLsb'_toNat, Nat.shiftRight_eq_div_pow, Nat.mod_eq_of_lt hlt]

theorem toNat_bit (b : Bool) : (bit b).toNat = b.toNat := by cases b <;> rfl

theorem toNat_resWord (q : Port) :
    (resWord q).toNat = q.tsValid.toNat * 2 ^ 8 + q.resVar.toNat * 2 ^ 4 + q.resVer.toNat := by
  change BitVec.toNat (w := _ + _) (_ ++ _) = _
  simp only [toNat_append_eq_add, toNat_bit, BitVec.toNat_ofNat]
  omega

/-- TS_MS_HI: the upper 16 bits of a millisecond count below zeros. -/
theorem toNat_msHigh (x : BitVec 48) : (0#16 ++ x.extractLsb' 32 16 : Word).toNat = x.toNat / 2 ^ 32 := by
  rw [toNat_append_eq_add, toNat_highPart (m := 16)]
  simp

/-- LAST_HI: the slot above the upper 16 bits of the millisecond count. -/
theorem toNat_slotMsHigh (slot : BitVec 12) (x : BitVec 48) :
    (0#4 ++ slot ++ x.extractLsb' 32 16 : Word).toNat = slot.toNat * 2 ^ 16 + x.toNat / 2 ^ 32 := by
  rw [toNat_append_eq_add, toNat_append_eq_add, toNat_highPart (m := 16)]
  simp

/-- Byte `i` of lane word `j` is element 4j+i of the array (20_memory.md R84). -/
theorem toNat_laneWord_byte {n : Nat} (x : Vector Byte n) (j : Nat) {i : Nat} (hi : i < 4) :
    (laneWord x j).toNat / 256 ^ i % 256 = (byteAt x (4 * j + i)).toNat := by
  have h0 := (byteAt x (4 * j)).isLt
  have h1 := (byteAt x (4 * j + 1)).isLt
  have h2 := (byteAt x (4 * j + 2)).isLt
  have h3 := (byteAt x (4 * j + 3)).isLt
  rw [laneWord]
  simp only [toNat_append_eq_add]
  obtain rfl | rfl | rfl | rfl : i = 0 ∨ i = 1 ∨ i = 2 ∨ i = 3 := by omega
  all_goals simp only [Nat.reducePow, Nat.add_zero]; omega

/-- Settles O11: each offset maps back to its register, and the fields are read off its word. -/
theorem addressMapReachesEachRegister : Obligations.AddressMapReachesEachRegister := by
  refine fun s => ⟨fun p q r hp hr => busRead_portReg hp hr, fun r hr => busRead_globalReg s hr, fun q => ?_,
    toNat_lowWord s.g.lastMs, toNat_slotMsHigh s.g.lastSlot s.g.lastMs, fun hmode => ?_⟩
  · exact ⟨rfl, toNat_resWord q, toNat_setWidth_word q.ilen (by decide), toNat_setWidth_word q.olen (by decide),
      toNat_setWidth_word q.argVer (by decide), toNat_setWidth_word q.tsSubns (by decide), toNat_lowWord q.argNs,
      toNat_highPart (m := 32) q.argNs, toNat_lowWord q.tsMs, toNat_msHigh q.tsMs,
      fun j i hi => ⟨toNat_laneWord_byte q.id j hi, toNat_laneWord_byte q.ibuf j hi, toNat_laneWord_byte q.obuf j hi⟩⟩
  · simp only [readGlobal, hmode, if_true]
    exact ⟨toNat_lowWord s.g.testClock, toNat_highPart (m := 32) s.g.testClock,
      fun j i hi => toNat_laneWord_byte s.g.testSeed j hi⟩

end Sys2Proof
end

section
/-! SUPPORT. A command in progress: until it completes, no event changes the operands and the result registers of its
port (20_memory.md R93, R94). -/

namespace Sys2Proof

open Sys2Proof.Machine

/-- The two ports hold the same results and the same operands. -/
def SameRegisters (q q' : Port) : Prop :=
  resultRegisters q' = resultRegisters q ∧ q'.ibuf = q.ibuf ∧ q'.ilen = q.ilen ∧ q'.argNs = q.argNs ∧ q'.argVer = q.argVer

theorem SameRegisters.refl (q : Port) : SameRegisters q q := ⟨rfl, rfl, rfl, rfl, rfl⟩

theorem SameRegisters.withSeq (q : Port) (seq : Seq) : SameRegisters q { q with seq := seq } := ⟨rfl, rfl, rfl, rfl, rfl⟩

theorem SameRegisters.withOvr (q : Port) (ovr : Bool) : SameRegisters q { q with ovr := ovr } := ⟨rfl, rfl, rfl, rfl, rfl⟩

/-- A port that is busy in both states holds the same registers in both. -/
def BusyPortsKeepRegisters (s t : State) : Prop :=
  ∀ (p : Nat) (q q' : Port), s.ports[p]? = some q → t.ports[p]? = some q' → q.seq ≠ .idle → q'.seq ≠ .idle →
    SameRegisters q q'

/-! ### The ways an event changes the ports -/

theorem BusyPortsKeepRegisters.ofSamePorts {s t : State} (h : t.ports = s.ports) : BusyPortsKeepRegisters s t := by
  intro p q q' hq hq' _ _
  obtain rfl := Option.some.inj (hq.symm.trans (h ▸ hq'))
  exact .refl q

/-- One port is replaced; `hx` is owed only where it is busy before and after. -/
theorem BusyPortsKeepRegisters.ofSet {s t : State} {k : Nat} {x : Port} (h : t.ports = s.ports.set k x)
    (hx : ∀ q, s.ports[k]? = some q → q.seq ≠ .idle → x.seq ≠ .idle → SameRegisters q x) :
    BusyPortsKeepRegisters s t := by
  intro p q q' hq hq' hbusy hbusy'
  rw [h] at hq'
  by_cases hp : k = p
  · subst hp
    have hk : k < s.ports.length := (List.getElem?_eq_some_iff.mp hq).1
    obtain rfl : x = q' := by simpa [hk] using hq'
    exact hx q hq hbusy hbusy'
  · rw [List.getElem?_set_ne hp] at hq'
    obtain rfl := Option.some.inj (hq.symm.trans hq')
    exact .refl q

/-- Of a busy port a write reaches OVR only (20_memory.md R92, R93). -/
theorem write_sameRegisters {q : Port} (hbusy : q.seq ≠ .idle) (phase : Phase) (v : Word) (r : PortReg) :
    SameRegisters q (q.write phase v r) := by
  rcases q.write_cases phase v r with ⟨-, -, hi, -⟩ | ⟨-, -, hw⟩ | ⟨-, hi, -⟩ | ⟨-, hw⟩
  · exact absurd hi hbusy
  · rw [hw]; exact .withOvr q true
  · exact absurd hi hbusy
  · rw [hw]; exact .refl q

theorem writePort_keepsBusyRegisters (s : State) (p : Nat) (v : Word) (r : PortReg) :
    BusyPortsKeepRegisters s { s with ports := s.ports.modify p fun q => q.write s.g.phase v r } := by
  cases hq : s.ports[p]? with
  | none => exact .ofSamePorts (by simp [List.modify_eq_set_getElem?, hq])
  | some q =>
    refine .ofSet (k := p) (x := q.write s.g.phase v r) (by simp [List.modify_eq_set_getElem?, hq])
      fun q0 hq0 hbusy _ => ?_
    obtain rfl := Option.some.inj (hq.symm.trans hq0)
    exact write_sameRegisters hbusy _ v r

theorem busWrite_keepsBusyRegisters {s t : State} {a n : Nat} {v : Word} (ht : s.busWrite a n v = .next t) :
    BusyPortsKeepRegisters s t := by
  rcases busWrite_cases ht with rfl | ⟨off, -, -, rfl⟩
  · exact .ofSamePorts rfl
  · rcases writeReg_cases s off v with ⟨-, clock, seed, hw⟩ | ⟨p, r, hw⟩ | hw <;> rw [hw]
    · exact .ofSamePorts rfl
    · exact writePort_keepsBusyRegisters s p v r
    · exact .ofSamePorts rfl

/-- A port whose command ends is IDLE, so it is not busy after the step. -/
theorem BusyPortsKeepRegisters.ofComplete {s t : State} {k : Nat} {p : Port} {err : BitVec 4}
    (h : t.ports = s.ports.set k (p.complete err)) : BusyPortsKeepRegisters s t :=
  .ofSet h fun _ _ _ hbusy => absurd rfl hbusy

theorem commandEffect_keepsBusyRegisters {i : Instr} {s t : State} (he : CommandEffect i s t) :
    BusyPortsKeepRegisters s t := by
  cases he with
  | waits e _ _ => exact .ofSamePorts rfl
  | acquires _ _ _ =>
    refine .ofSet rfl fun q hq _ _ => ?_
    exact port_eq_of_getElem? hq ▸ .withSeq s.port .strictSpin
  | ends e g p err _ _ _ _ => exact .ofComplete rfl
  | fatal e c _ => exact .ofSamePorts rfl

theorem portStep_keepsBusyRegisters {s t : State} {p : Nat} (ht : s.portStep p = .next t) :
    BusyPortsKeepRegisters s t := by
  rcases portStep_cases ht with ⟨-, rfl⟩ | ⟨-, op, -, ⟨i, -, he, -⟩ | ⟨x, -, rfl⟩⟩
  · exact .ofSamePorts rfl
  · exact commandEffect_keepsBusyRegisters (s := s.withCurrent p) he
  · exact .ofComplete rfl

theorem seedingStep_ports (s : State) : s.seedingStep.ports = s.ports := by
  rcases seedingStep_cases s with hs | ⟨-, e, -, hs | ⟨seed, hs⟩⟩ <;> rw [hs] <;> rfl

theorem takeEvent_keepsBusyRegisters {s t : State} {e : Event} (hr : isReset e = false) (ht : s.takeEvent e = .next t) :
    BusyPortsKeepRegisters s t := by
  cases e with
  | read a n => obtain ⟨r, rfl⟩ := busRead_cases ht; exact .ofSamePorts rfl
  | write a n v => exact busWrite_keepsBusyRegisters ht
  | portStep p => exact portStep_keepsBusyRegisters ht
  | seedStep => exact Host.Outcome.next.inj ht ▸ .ofSamePorts (seedingStep_ports s)
  | reset strap => cases hr

/-- Settles O54: an event that leaves a port busy changes at most its OVR and its strict state. -/
theorem resultsAppearOnlyAtCompletion : Obligations.ResultsAppearOnlyAtCompletion :=
  fun _ _ _ p q q' hr ht hq hq' hbusy hbusy' => takeEvent_keepsBusyRegisters hr ht p q q' hq hq' hbusy hbusy'

end Sys2Proof
end

section
/-! SUPPORT. The command encoding CMD8 (30_encoding.md R110 to R115): the decoder and the encoder agree, the opcodes that
no command has are those of R113's ranges, and a command word with one of them ends in IllegalCommand. -/

namespace Sys2Proof

open Sys2Proof.Machine

/-! ### The opcode map (30_encoding.md R112) -/

/-- The opcode of each command decodes to that command. -/
@[simp] theorem decodeOpcode_opcodeOf (i : Instr) : decodeOpcode (opcodeOf i) = .ok i := by cases i <;> rfl

/-- Each row of the map decodes its own opcode only. -/
theorem opcodeOf_of_decodeOpcode {op : Byte} {i : Instr} (h : decodeOpcode op = .ok i) : opcodeOf i = op := by
  unfold decodeOpcode at h
  split at h
  case h_25 => cases h
  all_goals
    rename_i hrow
    obtain rfl := Except.ok.inj h
    exact BitVec.eq_of_toNat_eq hrow.symm

theorem decodeOpcode_eq_ok_iff {op : Byte} {i : Instr} : decodeOpcode op = .ok i ↔ opcodeOf i = op :=
  ⟨opcodeOf_of_decodeOpcode, fun h => h ▸ decodeOpcode_opcodeOf i⟩

theorem opcodeField_append (hi : BitVec 24) (op : Byte) : opcodeField (hi ++ op) = op :=
  BitVec.extractLsb'_append_eq_right

/-- The decoder reads bits [7:0] only (30_encoding.md R110). -/
theorem decodeWord_append (hi : BitVec 24) (i : Instr) : decodeWord (hi ++ opcodeOf i) = .ok i := by
  rw [decodeWord, opcodeField_append, decodeOpcode_opcodeOf]

theorem opcodeField_encode (i : Instr) : opcodeField (encode i) = opcodeOf i :=
  BitVec.eq_of_toNat_eq (by simp [opcodeField, encode, (opcodeOf i).isLt])

theorem decodeWord_encode (i : Instr) : decodeWord (encode i) = .ok i := by
  rw [decodeWord, opcodeField_encode, decodeOpcode_opcodeOf]

theorem encode_injective {i j : Instr} (h : encode i = encode j) : i = j :=
  Except.ok.inj ((decodeWord_encode i).symm.trans (h ▸ decodeWord_encode j))

theorem toNat_opcodeField_tableWord (w : Nat) : (opcodeField (tableWord 32 w)).toNat = w % 256 := by
  simp only [opcodeField, tableWord, BitVec.extractLsb'_toNat, BitVec.toNat_ofNat, Nat.shiftRight_zero]
  omega

theorem decodeTableWord_eq_some_iff {n w : Nat} {i : Instr} :
    decodeTableWord n w = some i ↔ decodeWord (tableWord n w) = .ok i := by
  unfold decodeTableWord
  cases decodeWord (tableWord n w) <;> simp

/-- Settles O2: a word decodes to `i` exactly when its opcode field is `i`'s opcode, and the encoder's is. -/
theorem decodeReadsExactlyTheEncodedCommand : Obligations.DecodeReadsExactlyTheEncodedCommand := by
  refine ⟨fun i w _ => ?_, fun i hi => decodeWord_append hi i, decodeWord_encode, fun _ _ => encode_injective⟩
  calc decodeTableWord 32 w = some i
      ↔ opcodeOf i = opcodeField (tableWord 32 w) := decodeTableWord_eq_some_iff.trans decodeOpcode_eq_ok_iff
    _ ↔ w % 256 = (opcodeOf i).toNat := by
      rw [← BitVec.toNat_inj, toNat_opcodeField_tableWord]
      exact eq_comm

/-- Settles O1: the words are the encodings of the 24 commands, whose decoding is `decodeWord_encode`. -/
theorem opcodeMapDecodesEveryRow : Obligations.OpcodeMapDecodesEveryRow := by
  refine ⟨?_, by decide⟩
  exact List.map_congr_left (f := decodeWord ∘ encode) (g := .ok)
    (l := [.nop, .genV4, .genV7, .genV7At, .genV7Strict, .getVersion, .getVariant, .getTime, .shift, .shiftB32, .shiftB64,
      .unshift, .unshiftB32, .unshiftB64, .parse, .parseShort, .fromBytes, .fmtCanonical, .fmtC32, .fmtC64, .fmtShort,
      .fmtRaw, .fmtJson, .testReseed]) fun i _ => decodeWord_encode i

/-! ### The opcodes outside the map (30_encoding.md R113) -/

theorem illegalRange_opcodeOf (i : Instr) : illegalRange (opcodeOf i) = false := by cases i <;> rfl

/-- The rows of the map and the ranges of R113 leave no opcode out. -/
theorem illegalRange_of_decodeOpcode_error {op : Byte} {x : DecodeError} (h : decodeOpcode op = .error x) :
    illegalRange op = true := by
  unfold decodeOpcode at h
  split at h
  case h_25 =>
    simp only [illegalRange, Bool.or_eq_true, Bool.and_eq_true, decide_eq_true_eq, beq_iff_eq,
      imp_false] at *
    omega
  all_goals cases h

theorem not_decodes_iff_illegalRange (op : Byte) : (∀ i, decodeOpcode op ≠ .ok i) ↔ illegalRange op = true := by
  refine ⟨fun h => ?_, fun h i hi => ?_⟩
  · cases hd : decodeOpcode op with
    | ok i => exact absurd hd (h i)
    | error x => exact illegalRange_of_decodeOpcode_error hd
  · rw [← opcodeOf_of_decodeOpcode hi, illegalRange_opcodeOf] at h
    cases h

/-- The one opcode that is not accepted into BUSY(op) is legal (20_memory.md R92). -/
theorem acceptedSeq_of_illegalRange {op : Byte} (h : illegalRange op = true) : acceptedSeq op = .busy op :=
  if_neg fun hop => by subst hop; cases h

/-- The perform step of a port with an opcode outside the map: `complete(p, 8)` and no other change. -/
theorem portStep_illegal {s : State} {p : Nat} {q : Port} {op : Byte} (hready : s.g.phase = .ready)
    (hq : s.ports[p]? = some q) (hseq : q.seq = .busy op) (hop : illegalRange op = true) :
    s.portStep p = .next (endedWith (s.withCurrent p) s.g q 8) := by
  rw [portStep_eq_runOpcode (op := op) hready hq (by rw [hseq]; rfl)]
  exact runOpcode_illegal (s := s.withCurrent p) hq ((not_decodes_iff_illegalRange op).mpr hop)

/-- Settles O3: the write to CMD accepts the opcode, and the port's next step finds it illegal. -/
theorem illegalOpcodeCompletesWithCodeEight : Obligations.IllegalOpcodeCompletesWithCodeEight := by
  refine fun op => ⟨not_decodes_iff_illegalRange op, fun hop s p q v hp hready hidle hv => ?_⟩
  have hwrite := busWrite_portReg hp (r := .cmd) rfl v
  rw [write_cmd_accepted ⟨hready, hidle⟩, hv, Port.accept, acceptedSeq_of_illegalRange hop] at hwrite
  refine ⟨_, hwrite, rfl, ?_⟩
  have hlt : p < s.ports.length := (List.getElem?_eq_some_iff.mp hp.1).1
  rw [portStep_illegal (op := op) (by exact hready) (List.getElem?_set_self hlt) rfl hop]
  simp [endedWith, answered, State.withCurrent, State.setEnv]

end Sys2Proof
end

section
/-! SUPPORT. An identifier in the four words of ID (30_encoding.md R118): what the host reads there, and that writing the
four words of an identifier to an idle port leaves that identifier. -/

namespace Sys2Proof

open Sys2Proof.Machine

/-! ### Lane words and elements (20_memory.md R84) -/

theorem byteAt_eq_getElem {n : Nat} (x : Vector Byte n) {i : Nat} (h : i < n) : byteAt x i = x[i] := by
  simp [byteAt, h]

theorem laneWord_eq_getElem {n : Nat} (x : Vector Byte n) {j : Nat} (h : 4 * j + 3 < n) :
    laneWord x j = x[4 * j + 3] ++ x[4 * j + 2] ++ x[4 * j + 1] ++ x[4 * j] := by
  simp (disch := omega) only [laneWord, byteAt_eq_getElem]

/-- An identifier is determined by its four lane words. -/
theorem eq_of_laneWord_eq {x y : Ident} (h : ∀ j < 4, laneWord x j = laneWord y j) : x = y := by
  refine Vector.ext fun i hi => ?_
  have hlane := h (i / 4) (by omega)
  have hx := toNat_laneWord_byte x (i / 4) (i := i % 4) (by omega)
  have hy := toNat_laneWord_byte y (i / 4) (i := i % 4) (by omega)
  rw [hlane, hy, Nat.div_add_mod, byteAt_eq_getElem x hi, byteAt_eq_getElem y hi] at hx
  exact BitVec.eq_of_toNat_eq hx.symm

/-- An array after its lane words `js` are written with those of `b`, one after the other. -/
def writeLanes (b : Ident) (js : List Nat) (x : Ident) : Ident := js.foldl (fun y j => setLaneWord y j (laneWord b j)) x

@[simp] theorem writeLanes_nil (b x : Ident) : writeLanes b [] x = x := rfl

@[simp] theorem writeLanes_cons (b x : Ident) (j : Nat) (js : List Nat) :
    writeLanes b (j :: js) x = writeLanes b js (setLaneWord x j (laneWord b j)) := rfl

/-- All four words written, whatever the array held. -/
theorem writeLanes_all (b x : Ident) : writeLanes b [0, 1, 2, 3] x = b := by
  refine eq_of_laneWord_eq fun j hj => ?_
  simp only [writeLanes_cons, writeLanes_nil]
  obtain rfl | rfl | rfl | rfl : j = 0 ∨ j = 1 ∨ j = 2 ∨ j = 3 := by omega
  all_goals simp (disch := omega) only [laneWord_setLaneWord_ne, laneWord_setLaneWord_self]

/-! ### The host's writes to ID -/

/-- `s` after a bus write that leaves port `p` as `q`. -/
def afterPortWrite (s : State) (p : Nat) (q : Port) : State := { answered s .done with ports := s.ports.set p q }

theorem portIs_afterPortWrite {s : State} {p : Nat} {q : Port} (hp : PortIs s p q) (q' : Port) :
    PortIs (afterPortWrite s p q') p q' :=
  ⟨List.getElem?_set_self (List.getElem?_eq_some_iff.mp hp.1).1, hp.2⟩

theorem afterPortWrite_afterPortWrite (s : State) (p : Nat) (q q' : Port) :
    afterPortWrite (afterPortWrite s p q) p q' = afterPortWrite s p q' := by
  simp [afterPortWrite, answered]

/-- A write to a word of an idle port's ID replaces that word and nothing else. -/
theorem takeEvent_asmWr_id {s : State} {p : Nat} {q : Port} (hp : PortIs s p q) (hidle : q.seq = .idle) {j : Nat}
    (hj : j < 4) (v : Word) :
    s.takeEvent (asmWr s.base p (.id j) v) = .next (afterPortWrite s p { q with id := setLaneWord q.id j v }) := by
  have hwrite := busWrite_portReg hp (r := .id j) (decide_eq_true hj) v
  rw [write_of_idle (by simp) hidle] at hwrite
  exact hwrite

theorem takeEvents_cons {s t : State} {e : Event} (h : s.takeEvent e = .next t) (es : List Event) :
    takeEvents (e :: es) s = takeEvents es t := by simp only [takeEvents, h]

/-- A write to ID leaves its port idle, so the words written after one another all take effect. -/
theorem takeEvents_asmWr_ids {s : State} {p : Nat} {q : Port} (hp : PortIs s p q) (b : Ident) (js : List Nat)
    (hjs : ∀ j ∈ js, j < 4) (q' : Port) (hidle : q'.seq = .idle) :
    takeEvents (js.map fun j => asmWr s.base p (.id j) (laneWord b j)) (afterPortWrite s p q') =
      .next (afterPortWrite s p { q' with id := writeLanes b js q'.id }) := by
  induction js generalizing q' with
  | nil => rfl
  | cons j js ih =>
    have hfirst := takeEvent_asmWr_id (portIs_afterPortWrite hp q') hidle (hjs j (by simp)) (laneWord b j)
    rw [afterPortWrite_afterPortWrite] at hfirst
    have hrest := ih (fun k hk => hjs k (by simp [hk])) { q' with id := setLaneWord q'.id j (laneWord b j) } hidle
    exact (takeEvents_cons hfirst _).trans hrest

/-- LDID on an idle port: ID becomes the identifier, and the port keeps the rest (30_encoding.md R118, R134). -/
theorem takeEvents_asmLdid {s : State} {p : Nat} {q : Port} (hp : PortIs s p q) (hidle : q.seq = .idle) (b : Ident) :
    takeEvents (asmLdid s.base p b) s = .next (afterPortWrite s p { q with id := b }) := by
  have hfirst := takeEvent_asmWr_id hp hidle (by decide : 0 < 4) (laneWord b 0)
  have hrest := takeEvents_asmWr_ids hp b [1, 2, 3] (by decide) { q with id := setLaneWord q.id 0 (laneWord b 0) } hidle
  have hall : writeLanes b [1, 2, 3] (setLaneWord q.id 0 (laneWord b 0)) = b :=
    (writeLanes_cons b q.id 0 [1, 2, 3]).symm.trans (writeLanes_all b q.id)
  rw [hall] at hrest
  exact (takeEvents_cons hfirst _).trans hrest

/-- Settles O13: a read gives the lane word, and the four words of the example are those of its identifier. -/
theorem idWordsHoldTheIdentifierLittleEndianByLane : Obligations.IdWordsHoldTheIdentifierLittleEndianByLane := by
  refine ⟨fun s p q hp j hj => ?_, fun s p q hp hidle => ?_⟩
  · rw [Nat.add_assoc _ 0x10, ← laneWord_eq_getElem q.id (by omega)]
    exact busRead_portReg hp (r := .id j) (decide_eq_true hj)
  · exact takeEvents_asmLdid hp hidle
      #v[0x01, 0x86, 0x7b, 0x2c, 0xa0, 0xdd, 0x45, 0x9c, 0x98, 0xd7, 0x89, 0xe5, 0x45, 0x53, 0x8d, 0x6c]

end Sys2Proof
end

section
/-! SUPPORT. The compact forms before their digits matter: the length chooses the base, the leading character the version,
and the versions nil and max have one literal each (44_parse.md R281 to R283). -/

namespace Sys2Proof

open Sys2Proof.Machine

/-! ### The length and the leading character (44_parse.md R273, R282) -/

theorem parseStripped_of_length_26 {l : List Byte} (h : l.length = 26) : parseStripped l = parseCompact .b32 l := by
  simp [parseStripped, h]

theorem parseStripped_of_length_22 {l : List Byte} (h : l.length = 22) : parseStripped l = parseCompact .b64 l := by
  simp [parseStripped, h]

theorem leadVersion_of_mem_nil : ∀ c ∈ text "Aa", leadVersion c = some 0 := by decide

theorem leadVersion_of_mem_max : ∀ c ∈ text "Pp", leadVersion c = some 15 := by decide

/-- Folding to upper case leads to one of the four letters from these eight bytes only. -/
theorem leadVersion_of_not_mem : ∀ c : Byte, c ∉ text "AaEeHhPp" → leadVersion c = none := by decide

theorem parseCompact_unknownLead (B : CompactBase) {l : List Byte} (h : charAt l 0 ∉ text "AaEeHhPp") :
    parseCompact B l = .error .unsupportedVersion := by
  rw [parseCompact, leadVersion_of_not_mem _ h]

/-! ### The literals (44_parse.md R283) -/

theorem parseCompact_nilLead (B : CompactBase) {l : List Byte} (h : charAt l 0 ∈ text "Aa") :
    parseCompact B l = if matchesNilCompact B l then .ok Ident.nil else .error .unsupportedVersion := by
  rw [parseCompact, leadVersion_of_mem_nil _ h]
  exact if_pos rfl

theorem parseCompact_maxLead (B : CompactBase) {l : List Byte} (h : charAt l 0 ∈ text "Pp") :
    parseCompact B l = if matchesMaxCompact B l then .ok Ident.max else .error .unsupportedVersion := by
  rw [parseCompact, leadVersion_of_mem_max _ h]
  exact (if_neg (by decide)).trans (if_pos rfl)

theorem matchesNilCompact_b32_iff (l : List Byte) :
    matchesNilCompact .b32 l = true ↔ l.map upper = List.replicate 26 0x41 := by
  rw [show List.replicate 26 0x41 = nilC32.map upper by decide]
  exact beq_iff_eq

theorem matchesMaxCompact_b32_iff (l : List Byte) :
    matchesMaxCompact .b32 l = true ↔ l.map upper = text "P777777777777777777777777P" := by
  rw [show text "P777777777777777777777777P" = maxC32.map upper by decide]
  exact beq_iff_eq

theorem matchesNilCompact_b64_iff (l : List Byte) :
    matchesNilCompact .b64 l = true ↔ l.drop 1 = List.replicate 21 0x41 := by
  rw [show List.replicate 21 0x41 = nilC64.drop 1 by decide]
  exact beq_iff_eq

theorem matchesMaxCompact_b64_iff (l : List Byte) :
    matchesMaxCompact .b64 l = true ↔ l.drop 1 = text "____________________P" := by
  rw [show text "____________________P" = maxC64.drop 1 by decide]
  exact beq_iff_eq

/-- Settles O40: the leading character decides between the two literals and the failure, for each base. -/
theorem compactLiteralsAndLeadingCharacters : Obligations.CompactLiteralsAndLeadingCharacters := by
  refine fun l => ⟨fun hlen hc => ?_, fun hlen hc => ?_, fun hlen hc => ?_, fun hlen hc => ?_, fun hlen hc => ?_⟩
  · rcases hlen with hlen | hlen
    · exact (parseStripped_of_length_26 hlen).trans (parseCompact_unknownLead .b32 hc)
    · exact (parseStripped_of_length_22 hlen).trans (parseCompact_unknownLead .b64 hc)
  · rw [parseStripped_of_length_26 hlen, parseCompact_nilLead .b32 hc]
    exact if_congr (matchesNilCompact_b32_iff l) rfl rfl
  · rw [parseStripped_of_length_26 hlen, parseCompact_maxLead .b32 hc]
    exact if_congr (matchesMaxCompact_b32_iff l) rfl rfl
  · rw [parseStripped_of_length_22 hlen, parseCompact_nilLead .b64 hc]
    exact if_congr (matchesNilCompact_b64_iff l) rfl rfl
  · rw [parseStripped_of_length_22 hlen, parseCompact_maxLead .b64 hc]
    exact if_congr (matchesMaxCompact_b64_iff l) rfl rfl

end Sys2Proof
end

section
/-! SUPPORT. The output forms that write the digits of the identifier's number U: base 57, and hex digits in five groups
(45_format.md R320, R321, R324, R326). -/

namespace Sys2Proof

open Sys2Proof.Machine

/-! ### What a format command does with its form (45_format.md R320) -/

theorem formatStep_eq (s : State) {f : List Byte} {n : Nat} (h : f.length = n) :
    s.formatStep f = endedWith s s.g { s.port with obuf := bytesPadded 64 f, olen := BitVec.ofNat 8 n } 0 := by
  subst h
  rfl

/-! ### Digits of numbers -/

theorem numberBE_append (base : Nat) (x y : List Nat) :
    numberBE base (x ++ y) = numberBE base x * base ^ y.length + numberBE base y := by
  induction y using List.reverseRecOn with
  | nil => simp
  | append_singleton y d ih =>
    rw [← List.append_assoc, numberBE_append_singleton, numberBE_append_singleton, ih, List.length_append,
      List.length_singleton, Nat.pow_succ]
    ring

/-- All digits but the last. -/
theorem take_digitsBE (base len n : Nat) : (digitsBE base (len + 1) n).take len = digitsBE base len (n / base) := by
  rw [digitsBE, List.take_left' (length_digitsBE base len _)]

theorem digitsBE_mul_add {base d : Nat} (hd : d < base) (len n : Nat) :
    digitsBE base (len + 1) (n * base + d) = digitsBE base len n ++ [d] := by
  have hdiv : (n * base + d) / base = n := by
    rw [Nat.mul_comm, Nat.mul_add_div (by omega), Nat.div_eq_of_lt hd, Nat.add_zero]
  have hmod : (n * base + d) % base = d := by rw [Nat.mul_comm, Nat.mul_add_mod, Nat.mod_eq_of_lt hd]
  rw [digitsBE, hdiv, hmod]

/-! ### The base-57 form (45_format.md R324) -/

/-- Settles O46: 22 base-57 digits hold every 128-bit number. -/
theorem shortFormatWritesTheNumberInBaseFiftySeven : Obligations.ShortFormatWritesTheNumberInBaseFiftySeven := by
  intro s
  have hfits : numberOfIdent s.port.id < 57 ^ 22 := (numberOfIdent_lt s.port.id).trans (by norm_num)
  refine ⟨shortText s.port.id, digitsBE 57 22 (numberOfIdent s.port.id), length_shortText _,
    congrArg Host.Outcome.next (formatStep_eq s (length_shortText _)), by rw [shortText, alpha57], fun d hd => ?_, ?_⟩
  · exact Nat.le_of_lt_succ (digitsBE_lt (by decide) 22 _ d hd)
  · rw [numberBE_digitsBE, Nat.mod_eq_of_lt hfits]

/-! ### The canonical form (30_encoding.md R121, 45_format.md R321) -/

theorem hexOfByte_eq (y : Byte) :
    hexOfByte y = [symbol hexDigits (y.toNat / 16), symbol hexDigits (y.toNat % 16)] := by
  revert y; decide

/-- Two hex digits a byte are the hex digits of the bytes' number. -/
theorem flatMap_hexOfByte (l : List Byte) :
    l.flatMap hexOfByte = (digitsBE 16 (2 * l.length) (numberBE 256 (byteValues l))).map (symbol hexDigits) := by
  induction l using List.reverseRecOn with
  | nil => rfl
  | append_singleton l y ih =>
    have hnum : numberBE 256 (byteValues (l ++ [y])) =
        (numberBE 256 (byteValues l) * 16 + y.toNat / 16) * 16 + y.toNat % 16 := by
      rw [byteValues, List.map_append, List.map_singleton, numberBE_append_singleton, byteValues]
      omega
    have hy := y.isLt
    rw [List.flatMap_append, List.flatMap_singleton, ih, hnum, hexOfByte_eq, List.length_append, List.length_singleton,
      Nat.mul_add, digitsBE_mul_add (by omega), digitsBE_mul_add (by omega)]
    simp

theorem hexOfIdent_eq (b : Ident) : hexOfIdent b = (digitsBE 16 32 (numberOfIdent b)).map (symbol hexDigits) := by
  simpa [hexOfIdent, numberOfIdent] using flatMap_hexOfByte b.toList

/-- Five groups of 8, 4, 4, 4 and 12 characters with dashes between them. -/
def dashedGroups (a b c d e : List Byte) : List Byte := a ++ dash ++ b ++ dash ++ c ++ dash ++ d ++ dash ++ e

section
variable {a b c d e : List Byte} (ha : a.length = 8) (hb : b.length = 4) (hc : c.length = 4) (hd : d.length = 4)
  (he : e.length = 12)
include ha hb hc hd

theorem charAt_dashedGroups : ∀ i ∈ [8, 13, 18, 23], charAt (dashedGroups a b c d e) i = 0x2D := by
  simp [charAt, dashedGroups, dash, List.getElem?_append, ha, hb, hc, hd]

include he

theorem canonicalHex_dashedGroups : canonicalHex (dashedGroups a b c d e) = a ++ b ++ c ++ d ++ e := by
  simp (disch := omega) [canonicalHex, dashedGroups, slice, dash, List.drop_append, List.drop_eq_nil_of_le,
    List.take_of_length_le, ha, hb, hc, hd]

end

/-- The canonical form is its 32 hex digits with a dash between the groups. -/
theorem canonicalText_dashes_and_hex (b : Ident) :
    (∀ i ∈ [8, 13, 18, 23], charAt (canonicalText b) i = 0x2D) ∧ canonicalHex (canonicalText b) = hexOfIdent b := by
  have hlen := length_hexOfIdent b
  have hslice : ∀ i len, i + len ≤ 32 → (slice (hexOfIdent b) i len).length = len := fun i len h => by
    simp [slice]; omega
  have h0 := hslice 0 8 (by decide)
  have h8 := hslice 8 4 (by decide)
  have h12 := hslice 12 4 (by decide)
  have h16 := hslice 16 4 (by decide)
  have h20 := hslice 20 12 (by decide)
  have hjoin : slice (hexOfIdent b) 0 8 ++ slice (hexOfIdent b) 8 4 ++ slice (hexOfIdent b) 12 4 ++
      slice (hexOfIdent b) 16 4 ++ slice (hexOfIdent b) 20 12 = hexOfIdent b := by
    simp only [slice, List.drop_zero, ← List.take_add]
    exact List.take_of_length_le hlen.le
  exact ⟨charAt_dashedGroups h0 h8 h12 h16, (canonicalHex_dashedGroups h0 h8 h12 h16 h20).trans hjoin⟩

/-- Settles O44: both forms carry the canonical text, whose characters but the dashes are the hex digits of U. -/
theorem canonicalFormatsWriteFiveHexGroups : Obligations.CanonicalFormatsWriteFiveHexGroups := by
  intro s
  obtain ⟨hdash, hhex⟩ := canonicalText_dashes_and_hex s.port.id
  exact ⟨canonicalText s.port.id, length_canonicalText _, hdash, hhex.trans (hexOfIdent_eq _),
    congrArg Host.Outcome.next (formatStep_eq s (length_canonicalText _)),
    congrArg Host.Outcome.next (formatStep_eq s (length_jsonText _))⟩

end Sys2Proof
end

section
/-! SUPPORT. The identifier's number U by its fields, and the compact forms: the version character, the digits of the 120
content bits, and the character of the variant nibble (43_repack.md R240, R250; 45_format.md R322, R323). -/

namespace Sys2Proof

open Sys2Proof.Machine

/-! ### The number of an identifier by bytes (00_scope.md R14, R20) -/

theorem toList_ident (b : Ident) :
    b.toList =
      [b[0], b[1], b[2], b[3], b[4], b[5], b[6], b[7], b[8], b[9], b[10], b[11], b[12], b[13], b[14], b[15]] := by
  obtain ⟨⟨l⟩, hl⟩ := b
  match l, hl with
  | [_, _, _, _, _, _, _, _, _, _, _, _, _, _, _, _], _ => rfl

/-- The number of the six bytes before the one that holds the version. -/
def headNumber (b : Ident) : Nat := numberBE 256 (byteValues [b[0], b[1], b[2], b[3], b[4], b[5]])

/-- The seven bytes after the one that holds the variant. -/
def tailBytes (b : Ident) : List Byte := [b[9], b[10], b[11], b[12], b[13], b[14], b[15]]

/-- The number of the seven bytes after the one that holds the variant. -/
def tailNumber (b : Ident) : Nat := numberBE 256 (byteValues (tailBytes b))

theorem tailNumber_lt (b : Ident) : tailNumber b < 2 ^ 56 := by
  have h := numberBE_lt (base := 256) (by decide) (byteValues (tailBytes b)) (byteValues_lt _)
  have hlen : (byteValues (tailBytes b)).length = 7 := rfl
  rw [hlen] at h
  exact h

theorem numberBE_append_tail (b : Ident) (l : List Byte) :
    numberBE 256 (byteValues (l ++ tailBytes b)) = numberBE 256 (byteValues l) * 2 ^ 56 + tailNumber b := by
  have hlen : (byteValues (tailBytes b)).length = 7 := rfl
  rw [byteValues, List.map_append, ← byteValues, ← byteValues, numberBE_append, hlen, tailNumber,
    show 256 ^ 7 = 2 ^ 56 by norm_num]

theorem numberBE_head_append (b : Ident) (l : List Byte) :
    numberBE 256 (byteValues ([b[0], b[1], b[2], b[3], b[4], b[5]] ++ l)) =
      headNumber b * 256 ^ l.length + numberBE 256 (byteValues l) := by
  rw [byteValues, List.map_append, numberBE_append, List.length_map]
  rfl

theorem numberOfIdent_eq (b : Ident) :
    numberOfIdent b =
      headNumber b * 2 ^ 80 + b[6].toNat * 2 ^ 72 + b[7].toNat * 2 ^ 64 + b[8].toNat * 2 ^ 56 + tailNumber b := by
  have hsplit : b.toList = ([b[0], b[1], b[2], b[3], b[4], b[5]] ++ [b[6], b[7], b[8]]) ++ tailBytes b := toList_ident b
  rw [numberOfIdent, hsplit, numberBE_append_tail, numberBE_head_append]
  simp only [byteValues, numberBE, List.map_cons, List.map_nil, List.foldl_cons, List.foldl_nil, List.length_cons,
    List.length_nil]
  omega

theorem toNat_hiNibble (y : Byte) : (hiNibble y).toNat = y.toNat / 16 := by revert y; decide

theorem toNat_loNibble (y : Byte) : (loNibble y).toNat = y.toNat % 16 := by revert y; decide

/-- The version nibble is bits 79 to 76 of U. -/
theorem toNat_versionOf (b : Ident) : (versionOf b).toNat = numberOfIdent b / 2 ^ 76 % 16 := by
  have htail := tailNumber_lt b
  have h6 := b[6].isLt
  have h7 := b[7].isLt
  have h8 := b[8].isLt
  rw [versionOf, toNat_hiNibble, numberOfIdent_eq]
  omega

/-- The variant nibble is bits 63 to 60 of U. -/
theorem toNat_variantNibbleOf (b : Ident) : (variantNibbleOf b).toNat = numberOfIdent b / 2 ^ 60 % 16 := by
  have htail := tailNumber_lt b
  have h8 := b[8].isLt
  rw [variantNibbleOf, toNat_hiNibble, numberOfIdent_eq]
  omega

/-! ### The shifted form (43_repack.md R240, R244) -/

/-- Without its two nibbles the identifier closes up to the 120 content bits. -/
theorem numberBE_packContent (b : Ident) :
    numberBE 256 (byteValues (packContent b).toList) = contentNumber (numberOfIdent b) := by
  have hsplit : (packContent b).toList =
      ([b[0], b[1], b[2], b[3], b[4], b[5]] ++ [loNibble b[6] ++ hiNibble b[7], loNibble b[7] ++ loNibble b[8]]) ++
        tailBytes b := rfl
  have htail := tailNumber_lt b
  have h6 := b[6].isLt
  have h7 := b[7].isLt
  have h8 := b[8].isLt
  have hhead : numberOfIdent b / 2 ^ 80 = headNumber b := by rw [numberOfIdent_eq]; omega
  have hmid : numberOfIdent b / 2 ^ 64 % 2 ^ 12 = b[6].toNat % 16 * 256 + b[7].toNat := by rw [numberOfIdent_eq]; omega
  have hlow : numberOfIdent b % 2 ^ 60 = b[8].toNat % 16 * 2 ^ 56 + tailNumber b := by rw [numberOfIdent_eq]; omega
  rw [hsplit, numberBE_append_tail, numberBE_head_append, contentNumber, hhead, hmid, hlow]
  simp only [byteValues, numberBE, List.map_cons, List.map_nil, List.foldl_cons, List.foldl_nil, List.length_cons,
    List.length_nil, toNat_append_eq_add, toNat_hiNibble, toNat_loNibble]
  omega

/-- The last byte of the shifted form is the variant nibble, moved right by k from its high half. -/
theorem toNat_shiftedNibble (v : BitVec 4) {k : Nat} (hk : k < 3) :
    ((v ++ 0#4 : Byte) >>> k).toNat = v.toNat * 2 ^ (4 - k) := by
  obtain rfl | rfl | rfl : k = 0 ∨ k = 1 ∨ k = 2 := by omega
  all_goals revert v; decide

theorem numberOfIdent_shiftBytes (b : Ident) {k : Nat} (hk : k < 3) :
    numberOfIdent (shiftBytes k b) =
      contentNumber (numberOfIdent b) * 256 + (variantNibbleOf b).toNat * 2 ^ (4 - k) := by
  have hlist : (shiftBytes k b).toList = (packContent b).toList ++ [(variantNibbleOf b ++ 0#4) >>> k] :=
    Vector.toList_push
  rw [numberOfIdent, hlist, byteValues, List.map_append, List.map_singleton, numberBE_append_singleton,
    ← byteValues, numberBE_packContent, toNat_shiftedNibble _ hk]

/-! ### The compact forms (45_format.md R322, R323) -/

/-- The digits of the shifted form but the last are the content's digits and the variant nibble: with k bits of tail
shift and 4 + k bits a digit, the nibble ends a digit. -/
theorem take_groupDigits_shiftBytes (b : Ident) {k len : Nat} (hk : k < 3) (hlen : (4 + k) * (len + 2) = 128 + 2 * k) :
    (groupDigits (4 + k) (len + 2) (shiftBytes k b)).take (len + 1) =
      digitsBE (2 ^ (4 + k)) len (contentNumber (numberOfIdent b)) ++ [numberOfIdent b / 2 ^ 60 % 16] := by
  have hnum : numberOfIdent (shiftBytes k b) * 2 ^ ((4 + k) * (len + 2) - 128) / 2 ^ (4 + k) =
      contentNumber (numberOfIdent b) * 2 ^ (4 + k) + numberOfIdent b / 2 ^ 60 % 16 := by
    rw [numberOfIdent_shiftBytes b hk, toNat_variantNibbleOf, hlen, Nat.add_sub_cancel_left]
    obtain rfl | rfl | rfl : k = 0 ∨ k = 1 ∨ k = 2 := by omega
    all_goals simp only [Nat.reduceMul, Nat.reduceAdd, Nat.reduceSub]; omega
  have hdigit : numberOfIdent b / 2 ^ 60 % 16 < 2 ^ (4 + k) := by rw [Nat.pow_add]; have := Nat.two_pow_pos k; omega
  rw [groupDigits, take_digitsBE, hnum, digitsBE_mul_add hdigit]

theorem versionChar_eq (v : BitVec 4) : versionChar v = BitVec.ofNat 8 (0x41 + v.toNat) := by revert v; decide

theorem symbol_alpha32_of_lt_16 : ∀ n < 16, symbol alpha32 n = BitVec.ofNat 8 (0x41 + n) := by decide

theorem symbol_alpha64_of_lt_16 : ∀ n < 16, symbol alpha64 n = BitVec.ofNat 8 (0x41 + n) := by decide

/-- Version character, content digits and the character of the variant nibble, for one base's alphabet. -/
theorem compactText_eq (b : Ident) {k len : Nat} (hk : k < 3) (hlen : (4 + k) * (len + 2) = 128 + 2 * k)
    {alphabet : List Byte} (hsym : ∀ n < 16, symbol alphabet n = BitVec.ofNat 8 (0x41 + n)) :
    versionChar (versionOf b) :: ((groupDigits (4 + k) (len + 2) (shiftBytes k b)).map (symbol alphabet)).take (len + 1) =
      BitVec.ofNat 8 (0x41 + numberOfIdent b / 2 ^ 76 % 16) ::
          (digitsBE (2 ^ (4 + k)) len (contentNumber (numberOfIdent b))).map (symbol alphabet) ++
        [BitVec.ofNat 8 (0x41 + numberOfIdent b / 2 ^ 60 % 16)] := by
  rw [versionChar_eq, toNat_versionOf, ← List.map_take, take_groupDigits_shiftBytes b hk hlen, List.map_append,
    List.map_singleton, hsym _ (Nat.mod_lt _ (by decide)), List.cons_append]

/-- Settles O45: the two compact texts are `compactText_eq` for k = 1 and k = 2. -/
theorem compactFormatsWriteVersionContentAndBookend : Obligations.CompactFormatsWriteVersionContentAndBookend := by
  intro s u first last f32 f64
  have h32 : compact32Text s.port.id = f32 := compactText_eq s.port.id (k := 1) (len := 24) (by decide) (by decide)
    symbol_alpha32_of_lt_16
  have h64 : compact64Text s.port.id = f64 := compactText_eq s.port.id (k := 2) (len := 20) (by decide) (by decide)
    symbol_alpha64_of_lt_16
  rw [← h32, ← h64]
  exact ⟨congrArg Host.Outcome.next (formatStep_eq s (length_compact32Text _)),
    congrArg Host.Outcome.next (formatStep_eq s (length_compact64Text _))⟩

end Sys2Proof
end

section
/-! SUPPORT. The services of 40_service.md: NOP, TEST_RESEED, the seeding step, and what production keeps from every event
but a reset. -/

namespace Sys2Proof

open Sys2Proof.Machine

/-! ### NOP and TEST_RESEED (40_service.md R171, R172) -/

theorem exec_nop (s : State) : exec .nop s = .next (endedWith s s.g s.port 0) := rfl

theorem exec_testReseed_testMode {s : State} (hmode : s.g.testMode = true) :
    exec .testReseed s = .next (endedWith s { s.g with seed := s.g.testSeed, rngPos := 0 } s.port 0) :=
  congrArg Host.Outcome.next (if_pos hmode)

theorem exec_testReseed_production {s : State} (hmode : s.g.testMode = false) :
    exec .testReseed s = .next (endedWith s s.g s.port 8) :=
  congrArg Host.Outcome.next (if_neg (by simp [hmode]))

/-- STATUS of an idle port after a completion with code 0: only READY, FATAL and OVR are left open (10_state.md R48). -/
theorem statusWord_completed (g : Shared) (q : Port) :
    statusWord g { q with err := 0, done := true, seq := .idle } =
      0#21 ++ bit false ++ bit g.isFatal ++ bit g.isReady ++ 0#4 ++ 0#1 ++ bit q.ovr ++ bit true ++ bit false := rfl

/-- Settles O17: 0x132 shows READY = 1, FATAL = 0 and OVR = 0, which NOP keeps. -/
theorem nopOnlyCompletes : Obligations.NopOnlyCompletes := by
  refine ⟨rfl, exec_nop, fun g q h => ?_⟩
  obtain ⟨-, -, hovr, -, hready, hfatal, -⟩ := statusWord_bits g { q with seq := .idle }
  rw [h] at hovr hready hfatal
  rw [statusWord_completed, ← hready, ← hfatal, show q.ovr = _ from hovr.symm]
  decide

/-- Settles O18: Fill reads only SEED and RNG_POS, and both commands leave TEST_SEED and 0 there. -/
theorem testReseedLoadsTheSeedOnlyInTestMode : Obligations.TestReseedLoadsTheSeedOnlyInTestMode := by
  refine ⟨rfl, fun s => exec_testReseed_testMode, fun s => exec_testReseed_production,
    fun s1 s2 t1 t2 hmode1 hmode2 hseed ht1 ht2 n => ?_⟩
  obtain rfl := Host.Outcome.next.inj ((exec_testReseed_testMode hmode1).symm.trans ht1)
  obtain rfl := Host.Outcome.next.inj ((exec_testReseed_testMode hmode2).symm.trans ht2)
  exact congrArg (fun seed => Config.prngBytes seed 0 n) hseed

/-! ### The seeding step (40_service.md R173) -/

theorem seedingStep_of_seeding {s : State} (hphase : s.g.phase = .seeding) : s.seedingStep = s.seedNow := by
  rw [State.seedingStep, hphase]

theorem seedNow_testMode {s : State} (hmode : s.g.testMode = true) : s.seedNow = s.seedWith s.g.testSeed := by
  rw [State.seedNow, if_pos hmode]

theorem seedNow_short {s : State} (hmode : s.g.testMode = false) (hdraw : s.entropyValue = none) :
    s.seedNow = s.afterEntropy.raiseFatal .entropyInitFailure := by
  simp only [State.seedNow, hmode, hdraw, Bool.false_eq_true, if_false]

theorem seedNow_full {s : State} {seed : Seed} (hmode : s.g.testMode = false) (hdraw : s.entropyValue = some seed) :
    s.seedNow = s.afterEntropy.seedWith seed := by
  simp only [State.seedNow, hmode, hdraw, Bool.false_eq_true, if_false]

/-- Outside READY a write to CMD sets OVR and starts nothing (20_memory.md R92). -/
theorem busWrite_cmd_not_ready {s : State} {p : Nat} {q : Port} (hphase : s.g.phase ≠ .ready) (hp : PortIs s p q)
    (v : Word) :
    s.busWrite (s.base + windowOffset p) 4 v =
      .next { answered s .done with ports := s.ports.set p { q with ovr := true } } := by
  have hwrite := busWrite_portReg hp (r := .cmd) rfl v
  rw [write_cmd_dropped (fun h => hphase h.1)] at hwrite
  exact hwrite

/-- Settles O16: one case for each mode and, in production, for each kind of draw. -/
theorem seedingStepSeedsOrHalts : Obligations.SeedingStepSeedsOrHalts := by
  intro s
  refine ⟨fun hphase hmode => ?_, fun hphase hmode => ?_, seedingStep_halted, fun p q v hphase hp => ?_⟩
  · rw [seedingStep_of_seeding hphase, seedNow_testMode hmode]
    rfl
  · rw [seedingStep_of_seeding hphase]
    have hvalue : s.entropyValue = s.env.entropyIn.headD (Config.entropy s.env.entropyNo) := rfl
    cases hdraw : s.env.entropyIn.headD (Config.entropy s.env.entropyNo) with
    | none => exact seedNow_short hmode (hvalue.trans hdraw)
    | some seed => exact seedNow_full hmode (hvalue.trans hdraw)
  · have hlt : p < s.ports.length := (List.getElem?_eq_some_iff.mp hp.1).1
    exact ⟨_, _, busWrite_cmd_not_ready hphase hp v, List.getElem?_set_self hlt, rfl⟩

/-! ### Production keeps the test registers and the seed (40_service.md R180) -/

/-- The mode stays; in production TEST_CLOCK and TEST_SEED stay too, and SEED once it has been loaded. -/
structure KeepsSubstitutes (s t : State) : Prop where
  mode : t.g.testMode = s.g.testMode
  production : s.g.testMode = false → t.g.testClock = s.g.testClock ∧ t.g.testSeed = s.g.testSeed ∧
    (s.g.phase ≠ .seeding → t.g.seed = s.g.seed)

theorem KeepsSubstitutes.ofFields {s t : State} (hmode : t.g.testMode = s.g.testMode)
    (hclock : t.g.testClock = s.g.testClock) (hseed : t.g.testSeed = s.g.testSeed)
    (hloaded : s.g.testMode = false → t.g.seed = s.g.seed) : KeepsSubstitutes s t :=
  ⟨hmode, fun hprod => ⟨hclock, hseed, fun _ => hloaded hprod⟩⟩

theorem KeepsSubstitutes.ofSameShared {s t : State} (h : t.g = s.g) : KeepsSubstitutes s t :=
  .ofFields (by rw [h]) (by rw [h]) (by rw [h]) fun _ => by rw [h]

/-- TEST_RESEED is the one command that writes SEED, and in production it is illegal. -/
theorem exec_keepsSubstitutes {i : Instr} {s t : State} (ht : exec i s = .next t) : KeepsSubstitutes s t := by
  obtain ⟨u, hu, he⟩ := exec_effect i s
  obtain rfl := Host.Outcome.next.inj (ht.symm.trans hu)
  cases he with
  | waits e _ _ => exact .ofSameShared rfl
  | acquires _ _ _ => exact .ofFields rfl rfl rfl fun _ => rfl
  | fatal e c _ => exact .ofFields rfl rfl rfl fun _ => rfl
  | ends e g p err _ _ _ hg =>
    refine .ofFields hg.testMode hg.testClock hg.testSeed fun hprod => ?_
    rcases hg.seed with rfl | hseed
    · have hend := Host.Outcome.next.inj ((exec_testReseed_production hprod).symm.trans ht)
      exact (congrArg (fun u : State => u.g.seed) hend).symm
    · exact hseed

theorem portStep_keepsSubstitutes {s t : State} {p : Nat} (ht : s.portStep p = .next t) : KeepsSubstitutes s t := by
  rcases portStep_cases ht with ⟨-, rfl⟩ | ⟨-, op, -, ⟨i, -, -, hx⟩ | ⟨x, -, rfl⟩⟩
  · exact .ofSameShared rfl
  · have h := exec_keepsSubstitutes hx
    exact ⟨h.mode, h.production⟩
  · exact .ofSameShared rfl

theorem busWrite_keepsSubstitutes {s t : State} {a n : Nat} {v : Word} (ht : s.busWrite a n v = .next t) :
    KeepsSubstitutes s t := by
  rcases busWrite_cases ht with rfl | ⟨off, -, -, rfl⟩
  · exact .ofSameShared rfl
  · rcases writeReg_cases s off v with ⟨htest, clock, seed, hw⟩ | ⟨p, r, hw⟩ | hw <;> rw [hw]
    · exact ⟨rfl, fun hprod => absurd (htest.symm.trans hprod) (by decide)⟩
    · exact .ofSameShared rfl
    · exact .ofSameShared rfl

theorem seedingStep_keepsSubstitutes (s : State) : KeepsSubstitutes s s.seedingStep := by
  rcases seedingStep_cases s with hs | ⟨hp, e, -, hs | ⟨seed, hs⟩⟩ <;> rw [hs]
  · exact .ofSameShared rfl
  · exact .ofFields rfl rfl rfl fun _ => rfl
  · exact ⟨rfl, fun _ => ⟨rfl, rfl, fun hphase => absurd hp hphase⟩⟩

theorem takeEvent_keepsSubstitutes {s t : State} {e : Event} (hr : isReset e = false) (ht : s.takeEvent e = .next t) :
    KeepsSubstitutes s t := by
  cases e with
  | read addr bytes => obtain ⟨r, rfl⟩ := busRead_cases ht; exact .ofSameShared rfl
  | write addr bytes v => exact busWrite_keepsSubstitutes ht
  | portStep p => exact portStep_keepsSubstitutes ht
  | seedStep => exact Host.Outcome.next.inj ht ▸ seedingStep_keepsSubstitutes s
  | reset strap => cases hr

theorem nowValue_production {s : State} (hmode : s.g.testMode = false) : s.nowValue = s.clockValue := by
  simp only [State.nowValue, hmode, Bool.false_eq_true, if_false]

/-- Settles O56: every event but a reset is one of the above, and in production the test registers read 0. -/
theorem productionCannotReachTheSubstitutes : Obligations.ProductionCannotReachTheSubstitutes := by
  refine ⟨fun s t e hr ht => ?_, fun s hmode => ?_⟩
  · have h := takeEvent_keepsSubstitutes hr ht
    exact ⟨h.mode, h.production⟩
  · exact ⟨exec_testReseed_production hmode, fun r hr => readGlobal_production hr hmode, nowValue_production hmode⟩

end Sys2Proof
end

section
/-! SUPPORT. GEN_V7 and GEN_V7_AT (42_generate.md R214, R215): the v7 identifier field by field, the sign test of the tick,
and the order of the results, which is that of the ticks (R221). -/

namespace Sys2Proof

open Sys2Proof.Machine

/-! ### The fields of a v7 identifier (30_encoding.md R116, R117) -/

theorem msOf_v7Ident (ms : BitVec 48) (slot : BitVec 12) (r : Vector Byte 8) : msOf (v7Ident ms slot r) = ms := by
  change ms.extractLsb' 40 8 ++ ms.extractLsb' 32 8 ++ ms.extractLsb' 24 8 ++ ms.extractLsb' 16 8 ++
    ms.extractLsb' 8 8 ++ ms.extractLsb' 0 8 = ms
  simp (disch := decide) only [BitVec.extractLsb'_append_extractLsb'_eq_extractLsb']
  exact BitVec.extractLsb'_eq_self

theorem slotOf_v7Ident (ms : BitVec 48) (slot : BitVec 12) (r : Vector Byte 8) : slotOf (v7Ident ms slot r) = slot := by
  change loNibble (0x7#4 ++ slot.extractLsb' 8 4) ++ slot.extractLsb' 0 8 = slot
  rw [loNibble_append, BitVec.extractLsb'_append_extractLsb'_eq_extractLsb' (by decide)]
  exact BitVec.extractLsb'_eq_self

theorem versionOf_v7Ident (ms : BitVec 48) (slot : BitVec 12) (r : Vector Byte 8) : versionOf (v7Ident ms slot r) = 7 :=
  hiNibble_append 0x7#4 (slot.extractLsb' 8 4)

/-- The byte that holds the variant keeps the six low bits of the random byte below the variant `10`. -/
theorem variantByte_fields (y : Byte) :
    ((y &&& 0x3F#8) ||| 0x80#8).extractLsb' 6 2 = 2 ∧ ((y &&& 0x3F#8) ||| 0x80#8).extractLsb' 0 6 = y.extractLsb' 0 6 := by
  revert y; decide

theorem byteAt_v7Ident_low (ms : BitVec 48) (slot : BitVec 12) (r : Vector Byte 8) {i : Nat} (hi : i < 7) :
    byteAt (v7Ident ms slot r) (9 + i) = byteAt r (1 + i) := by
  interval_cases i <;> simp [byteAt, v7Ident]

/-! ### Ticks: the sign and the split (42_generate.md R210, R211) -/

theorem toNat_lt_of_nonneg {ns : BitVec 64} (h : 0 ≤ ns.toInt) : ns.toNat < 2 ^ 63 := by
  rw [BitVec.toInt_eq_toNat_cond] at h
  have := ns.isLt
  split at h <;> omega

theorem toNat_le_of_toInt_le {n1 n2 : BitVec 64} (h0 : 0 ≤ n1.toInt) (h : n1.toInt ≤ n2.toInt) : n1.toNat ≤ n2.toNat := by
  have h1 := toNat_lt_of_nonneg h0
  have h2 := toNat_lt_of_nonneg (h0.trans h)
  rw [BitVec.toInt_eq_toNat_of_lt (by omega), BitVec.toInt_eq_toNat_of_lt (by omega)] at h
  omega

/-- The 48-bit register holds the whole millisecond count of a non-negative tick. -/
theorem toNat_msRegister {ns : BitVec 64} (h : 0 ≤ ns.toInt) :
    (BitVec.ofNat 48 (splitMs ns.toNat)).toNat = splitMs ns.toNat :=
  Nat.mod_eq_of_lt (splitMs_lt (toNat_lt_of_nonneg h))

theorem toNat_slotRegister (ns : Nat) : (BitVec.ofNat 12 (splitSlot ns)).toNat = splitSlot ns :=
  Nat.mod_eq_of_lt (splitSlot_lt ns)

theorem isV7_v7OfTick {ns : BitVec 64} (h : 0 ≤ ns.toInt) (r : Vector Byte 8) : IsV7 (v7OfTick ns r) ns.toNat r where
  ms := (congrArg BitVec.toNat (msOf_v7Ident _ _ r)).trans (toNat_msRegister h)
  version := versionOf_v7Ident _ _ r
  slot := (congrArg BitVec.toNat (slotOf_v7Ident _ _ r)).trans (toNat_slotRegister _)
  variant := (variantByte_fields r[0]).1
  randHigh := (variantByte_fields r[0]).2
  randLow := fun _ hi => byteAt_v7Ident_low _ _ r hi

/-! ### The sign test and the clock sample (42_generate.md R214, 40_service.md R177, R178) -/

theorem slt_zero_iff (ns : BitVec 64) : ns.slt 0 = true ↔ ¬ 0 ≤ ns.toInt := by
  rw [BitVec.slt_iff_toInt_lt, not_le]
  rfl

theorem generateV7_of_nonneg (s : State) {ns : BitVec 64} (h : 0 ≤ ns.toInt) : s.generateV7 ns = s.completeV7 ns := by
  rw [State.generateV7, if_neg (fun hs => (slt_zero_iff ns).mp hs h)]

theorem generateV7_of_neg (s : State) {ns : BitVec 64} (h : ¬ 0 ≤ ns.toInt) :
    s.generateV7 ns = s.raiseFatal .preEpochTime := by
  rw [State.generateV7, if_pos ((slt_zero_iff ns).mpr h)]

theorem nowValue_of_sampled {s : State} {ns : BitVec 64} {e : Env} (h : Sampled s ns e) : s.nowValue = ns := by
  rcases h with ⟨hmode, rfl, -⟩ | ⟨hmode, rfl, -⟩
  · rw [State.nowValue, if_pos hmode]
  · exact nowValue_production hmode

theorem afterNow_of_sampled {s : State} {ns : BitVec 64} {e : Env} (h : Sampled s ns e) :
    s.afterNow = s.setEnv e ∧ e.cur = s.env.cur := by
  rcases h with ⟨hmode, -, rfl⟩ | ⟨hmode, -, rfl⟩
  · exact ⟨if_pos hmode, rfl⟩
  · exact ⟨if_neg (by simp [hmode]), rfl⟩

/-- GEN_V7 works on the tick that it sampled, with the record of the outside world after the sample. -/
theorem exec_genV7_of_sampled {s : State} {ns : BitVec 64} {e : Env} (h : Sampled s ns e) :
    exec .genV7 s = .next ((s.setEnv e).generateV7 ns) := by
  rw [← (afterNow_of_sampled h).1, ← nowValue_of_sampled h]
  rfl

/-- Settles O24: a non-negative tick passes the sign test, and the command ends with the tick's v7 identifier. -/
theorem genV7WritesTheTickAndRandomBytes : Obligations.GenV7WritesTheTickAndRandomBytes := by
  intro s r g'
  refine ⟨fun h0 => ⟨v7OfTick s.port.argNs r, isV7_v7OfTick h0 r, ?_⟩,
    fun ns e hsample h0 => ⟨v7OfTick ns r, isV7_v7OfTick h0 r, ?_⟩⟩
  · exact congrArg Host.Outcome.next (generateV7_of_nonneg s h0)
  · rw [exec_genV7_of_sampled hsample, generateV7_of_nonneg _ h0, completeV7_setEnv s (afterNow_of_sampled hsample).2]
    rfl

/-! ### The order of results (42_generate.md R212, R221) -/

/-- A later tick has the larger millisecond count, or the same count and no smaller slot. -/
theorem splitPair_mono {n1 n2 : Nat} (h : n1 ≤ n2) :
    splitMs n1 < splitMs n2 ∨ (splitMs n1 = splitMs n2 ∧ splitSlot n1 ≤ splitSlot n2) := by
  unfold splitMs splitSlot
  omega

theorem first8_v7OfTick {ns : BitVec 64} (h : 0 ≤ ns.toInt) (r : Vector Byte 8) :
    first8 (v7OfTick ns r) = 65536 * splitMs ns.toNat + 0x7000 + splitSlot ns.toNat := by
  rw [v7OfTick, first8_v7Ident, toNat_msRegister h, toNat_slotRegister]

theorem first8_v7OfTick_mono {n1 n2 : BitVec 64} (h0 : 0 ≤ n1.toInt) (h : n1.toInt ≤ n2.toInt) (r1 r2 : Vector Byte 8) :
    first8 (v7OfTick n1 r1) ≤ first8 (v7OfTick n2 r2) := by
  have hpair := splitPair_mono (toNat_le_of_toInt_le h0 h)
  have hslot := splitSlot_lt n1.toNat
  rw [first8_v7OfTick h0, first8_v7OfTick (h0.trans h)]
  omega

theorem port_id_completeV7 {s : State} (hcur : s.env.cur < s.nPorts) (ns : BitVec 64) :
    (s.completeV7 ns).port.id = v7OfTick ns (s.fillBytes 8) :=
  congrArg Port.id (State.port_setPort (s := s.afterFill 8) hcur _)

theorem generateV7_id {s : State} (hcur : s.env.cur < s.nPorts) {ns : BitVec 64} (h0 : 0 ≤ ns.toInt) :
    (s.generateV7 ns).port.id = v7OfTick ns (s.fillBytes 8) := by
  rw [generateV7_of_nonneg s h0, port_id_completeV7 hcur]

theorem exec_genV7_id {s : State} {ns : BitVec 64} {e : Env} (h : Sampled s ns e) (h0 : 0 ≤ ns.toInt)
    (hcur : s.env.cur < s.nPorts) : ∃ t r, exec .genV7 s = .next t ∧ t.port.id = v7OfTick ns r :=
  ⟨_, _, exec_genV7_of_sampled h, generateV7_id (s := s.setEnv e) ((afterNow_of_sampled h).2 ▸ hcur) h0⟩

theorem exec_genV7At_id {s : State} (h0 : 0 ≤ s.port.argNs.toInt) (hcur : s.env.cur < s.nPorts) :
    ∃ t r, exec .genV7At s = .next t ∧ t.port.id = v7OfTick s.port.argNs r :=
  ⟨_, _, rfl, generateV7_id hcur h0⟩

/-! ### Completions of GEN_V7 in an execution (40_service.md R179) -/

/-- A generator that leaves its busy port IDLE had a non-negative tick: Fatal changes no port. -/
theorem generateV7_completes {s : State} {ns : BitVec 64} (hcur : s.env.cur < s.nPorts) (hbusy : s.port.seq ≠ .idle)
    (hidle : (s.generateV7 ns).port.seq = .idle) :
    0 ≤ ns.toInt ∧ (s.generateV7 ns).port.id = v7OfTick ns (s.fillBytes 8) := by
  by_cases h0 : 0 ≤ ns.toInt
  · exact ⟨h0, generateV7_id hcur h0⟩
  · rw [generateV7_of_neg s h0] at hidle
    exact absurd hidle hbusy

section
variable {s : State} {p : Nat} {q : Port} (hready : s.g.phase = .ready) (hq : s.ports[p]? = some q)
  (hseq : q.seq = .busy 0x02)
include hready hq hseq

theorem portStep_of_genV7 :
    s.portStep p = .next ((s.withCurrent p).afterNow.generateV7 (s.withCurrent p).nowValue) :=
  (portStep_eq_runOpcode hready hq (by rw [hseq]; rfl)).trans (runOpcode_of_decode_ok (i := .genV7) rfl)

theorem nowInStep_of_genV7 : s.nowInStep (.portStep p) = some s.nowValue := by
  have hport : s.ports.getD p Port.reset = q := port_eq_of_getElem? (s := s.withCurrent p) hq
  have hen : s.portEnabled p = true :=
    (portEnabled_iff s p).mpr ⟨hready, fun h => (by cases (hport ▸ hseq).symm.trans h), (List.getElem?_eq_some_iff.mp hq).1⟩
  simp only [State.nowInStep, hen, hport, hseq]
  rfl

/-- The step that completes GEN_V7 writes the v7 identifier of the tick it sampled. -/
theorem portStep_genV7_completes {t : State} {q' : Port} (ht : s.portStep p = .next t) (hq' : t.ports[p]? = some q')
    (hidle : q'.seq = .idle) : 0 ≤ s.nowValue.toInt ∧ ∃ r, q'.id = v7OfTick s.nowValue r := by
  rw [portStep_of_genV7 hready hq hseq] at ht
  obtain rfl := Host.Outcome.next.inj ht
  have hport : (s.withCurrent p).afterNow.port = q := by rw [State.afterNow_port]; exact port_eq_of_getElem? hq
  have hcur : (s.withCurrent p).afterNow.env.cur < (s.withCurrent p).afterNow.nPorts := by
    simpa [State.nPorts] using (List.getElem?_eq_some_iff.mp hq).1
  have hbusy : (s.withCurrent p).afterNow.port.seq ≠ .idle := by rw [hport, hseq]; exact fun h => (by cases h)
  obtain rfl := port_eq_of_getElem? (s := (s.withCurrent p).afterNow.generateV7 _)
    (by rw [generateV7_env, State.afterNow_cur]; exact hq')
  obtain ⟨h0, hid⟩ := generateV7_completes hcur hbusy hidle
  exact ⟨h0, _, hid⟩

end

theorem plainCompletion_sample {s t : State} {e : Event} {b : Ident} (h : PlainCompletion s e t b) :
    ∃ ns r, s.nowInStep e = some ns ∧ 0 ≤ ns.toInt ∧ b = v7OfTick ns r := by
  obtain ⟨p, q', rfl, hready, ⟨q, hq, hseq⟩, ⟨events, eventNo, ht⟩, hq', hidle, rfl⟩ := h
  obtain ⟨h0, r, hid⟩ := portStep_genV7_completes
    (s := { s with env := { s.env with events := events, eventNo := eventNo } }) hready hq hseq ht hq' hidle
  exact ⟨s.nowValue, r, nowInStep_of_genV7 hready hq hseq, h0, hid⟩

theorem plainCompletion_unique {s t : State} {e : Event} {b1 b2 : Ident} (h1 : PlainCompletion s e t b1)
    (h2 : PlainCompletion s e t b2) : b1 = b2 := by
  obtain ⟨p, q1, rfl, -, -, -, hq1, -, rfl⟩ := h1
  obtain ⟨p', q2, hp, -, -, -, hq2, -, rfl⟩ := h2
  obtain rfl := Event.portStep.inj hp
  rw [Option.some.inj (hq1.symm.trans hq2)]

/-- Under CLOCK_NONDECREASING an earlier call of `Now()` returned no later a tick (40_service.md R179). -/
theorem now_le_of_lt {run : Nat → State} {ev : Nat → Event} (h : ExecutionClockNondecreasing run ev) {m n : Nat}
    (hmn : m < n) {x y : BitVec 64} (hx : (run m).nowInStep (ev m) = some x) (hy : (run n).nowInStep (ev n) = some y) :
    x.toInt ≤ y.toInt := by
  have hpairs := List.pairwise_filterMap.mp (h (n + 1))
  rw [List.range_succ, List.pairwise_append] at hpairs
  obtain ⟨-, -, hlast⟩ := hpairs
  exact hlast m (List.mem_range.mpr hmn) n (List.mem_singleton.mpr rfl) x hx y hy

/-- Settles O29: the first 8 bytes of a v7 identifier follow its tick, and each command's tick is its sample or ARG_NS. -/
theorem plainResultsFollowTheirTicks : Obligations.PlainResultsFollowTheirTicks := by
  refine ⟨fun s1 s2 n1 n2 e1 e2 h1 h2 h0 hclock hcur1 hcur2 => ?_, fun run ev _ hclock m n b1 b2 hmn h1 h2 => ?_,
    fun s1 s2 h0 hle hcur1 hcur2 => ?_⟩
  · have hle : n1.toInt ≤ n2.toInt := (List.pairwise_pair.mp hclock :)
    obtain ⟨t1, r1, ht1, hid1⟩ := exec_genV7_id h1 h0 hcur1
    obtain ⟨t2, r2, ht2, hid2⟩ := exec_genV7_id h2 (h0.trans hle) hcur2
    exact ⟨t1, t2, ht1, ht2, hid1 ▸ hid2 ▸ first8_v7OfTick_mono h0 hle r1 r2⟩
  · rcases hmn.lt_or_eq with hlt | rfl
    · obtain ⟨n1, r1, hnow1, h0, rfl⟩ := plainCompletion_sample h1
      obtain ⟨n2, r2, hnow2, -, rfl⟩ := plainCompletion_sample h2
      exact first8_v7OfTick_mono h0 (now_le_of_lt hclock hlt hnow1 hnow2) r1 r2
    · exact (congrArg first8 (plainCompletion_unique h1 h2)).le
  · obtain ⟨t1, r1, ht1, hid1⟩ := exec_genV7At_id h0 hcur1
    obtain ⟨t2, r2, ht2, hid2⟩ := exec_genV7At_id (h0.trans hle) hcur2
    exact ⟨t1, t2, ht1, ht2, hid1 ▸ hid2 ▸ first8_v7OfTick_mono h0 hle r1 r2⟩

end Sys2Proof
end

section
/-! SUPPORT. The accessors of 41_fields.md: the fields they read as digits of the identifier's number U, what each writes
(R191, R192, R193), and the laws of the reconstructed time (R195). -/

namespace Sys2Proof

open Sys2Proof.Machine

/-! ### The fields of the identifier's number (00_scope.md R14, R20; 30_encoding.md R117) -/

theorem toNat_topBits (y : Byte) : (y.extractLsb' 6 2).toNat = (hiNibble y).toNat / 4 := by revert y; decide

/-- The variant bits are the upper half of the variant nibble, bits 63 and 62 of U. -/
theorem toNat_variantOf (b : Ident) : (variantOf b).toNat = numberOfIdent b / 2 ^ 62 % 4 := by
  rw [variantOf, toNat_topBits, ← variantNibbleOf, toNat_variantNibbleOf]
  omega

theorem numberOfIdent_div_ms (b : Ident) : numberOfIdent b / 2 ^ 80 = headNumber b := by
  have htail := tailNumber_lt b
  have h6 := b[6].isLt
  have h7 := b[7].isLt
  have h8 := b[8].isLt
  rw [numberOfIdent_eq]
  omega

/-- The millisecond field is the number above bit 80 of U. -/
theorem toNat_msOf (b : Ident) : (msOf b).toNat = numberOfIdent b / 2 ^ 80 := by
  rw [numberOfIdent_div_ms]
  simp only [msOf, headNumber, byteValues, numberBE, List.map_cons, List.map_nil, List.foldl_cons, List.foldl_nil,
    toNat_append_eq_add]
  omega

/-- The slot is bits 75 to 64 of U. -/
theorem toNat_slotOf (b : Ident) : (slotOf b).toNat = numberOfIdent b / 2 ^ 64 % 2 ^ 12 := by
  have htail := tailNumber_lt b
  have h6 := b[6].isLt
  have h7 := b[7].isLt
  have h8 := b[8].isLt
  rw [slotOf, toNat_append_eq_add, toNat_loNibble, numberOfIdent_eq]
  omega

/-- Version 7 as a nibble is version 7 in U. -/
theorem versionOf_eq_seven_iff (b : Ident) : versionOf b = 7 ↔ numberOfIdent b / 2 ^ 76 % 16 = 7 := by
  rw [← toNat_versionOf, ← BitVec.toNat_inj]
  rfl

/-! ### GET_VERSION and GET_VARIANT (41_fields.md R191, R192) -/

theorem exec_getVersion (s : State) :
    exec .getVersion s = .next (endedWith s s.g { s.port with resVer := versionOf s.port.id } 0) := rfl

theorem exec_getVariant (s : State) :
    exec .getVariant s = .next (endedWith s s.g { s.port with resVar := variantOf s.port.id } 0) := rfl

/-- Settles O19: the two fields written are digits of U. -/
theorem accessorsWriteOnlyTheirField : Obligations.AccessorsWriteOnlyTheirField := fun s =>
  ⟨⟨versionOf s.port.id, exec_getVersion s, toNat_versionOf _⟩,
    ⟨variantOf s.port.id, exec_getVariant s, toNat_variantOf _⟩⟩

/-! ### GET_TIME (41_fields.md R193) -/

theorem exec_getTime (s : State) : exec .getTime s = .next (endedWith s s.g s.port.setTime 0) := rfl

theorem setTime_v7 {q : Port} (h : versionOf q.id = 7) :
    q.setTime =
      { q with
        tsValid := true
        tsMs := msOf q.id
        tsSubns := BitVec.ofNat 20 (slotNanoseconds (slotOf q.id).toNat) } := if_pos h

theorem setTime_not_v7 {q : Port} (h : versionOf q.id ≠ 7) :
    q.setTime = { q with tsValid := false, tsMs := 0, tsSubns := 0 } := if_neg h

/-- The 20-bit register TS_SUBNS holds the whole offset of a slot. -/
theorem toNat_subnsRegister (slot : BitVec 12) :
    (BitVec.ofNat 20 (slotNanoseconds slot.toNat)).toNat = slotNanoseconds slot.toNat := by
  have hoff := slotNanoseconds_le slot.isLt
  rw [BitVec.toNat_ofNat, Nat.mod_eq_of_lt (by omega)]

/-- Settles O20: the time fields by the version nibble, the only check. -/
theorem getTimeReadsAVersionSevenTime : Obligations.GetTimeReadsAVersionSevenTime := by
  refine ⟨rfl, fun s => ?_⟩
  by_cases hver : versionOf s.port.id = 7
  · refine ⟨_, _, _, setTime_v7 hver ▸ exec_getTime s, fun _ => ⟨rfl, toNat_msOf _, ?_⟩,
      fun hne => absurd ((versionOf_eq_seven_iff _).mp hver) hne⟩
    rw [toNat_subnsRegister, ← toNat_slotOf]
    exact ⟨rfl, slotNanoseconds_le (slotOf _).isLt⟩
  · exact ⟨_, _, _, setTime_not_v7 hver ▸ exec_getTime s, fun h7 => absurd ((versionOf_eq_seven_iff _).mpr h7) hver,
      fun _ => ⟨rfl, rfl, rfl⟩⟩

/-! ### The laws of reconstruction (41_fields.md R195) -/

/-- The offset of a tick's slot is at most 245 ns below the tick's own offset in its millisecond. -/
theorem slotNanoseconds_splitSlot (ns : Nat) :
    slotNanoseconds (splitSlot ns) ≤ ns % 1000000 ∧ ns % 1000000 ≤ slotNanoseconds (splitSlot ns) + 245 := by
  unfold slotNanoseconds splitSlot
  omega

theorem splitMs_reconstructTime (ms : Nat) {slot : Nat} (h : slot < 4096) : splitMs (reconstructTime ms slot) = ms := by
  have hoff := slotNanoseconds_le h
  unfold splitMs reconstructTime
  omega

theorem reconstructTime_mod (ms : Nat) {slot : Nat} (h : slot < 4096) :
    reconstructTime ms slot % 1000000 = slotNanoseconds slot := by
  have hoff := slotNanoseconds_le h
  unfold reconstructTime
  omega

/-- With `10^6 = 64 * 15625`, the offset of a slot is exact when 64 divides the slot, and is rounded down by less than one
ns else. -/
theorem slotNanoseconds_rounding (slot : Nat) :
    slotNanoseconds slot * 64 ≤ slot * 15625 ∧ slot * 15625 < slotNanoseconds slot * 64 + 64 ∧
      (slotNanoseconds slot * 64 = slot * 15625 ↔ slot % 64 = 0) := by
  unfold slotNanoseconds
  omega

/-- A rounded offset lies just below the start of its slot, in the slot before. -/
theorem slotNanoseconds_split_back (slot : Nat) :
    slotNanoseconds slot * 4096 / 1000000 = if slot % 64 = 0 then slot else slot - 1 := by
  obtain ⟨hle, hlt, hexact⟩ := slotNanoseconds_rounding slot
  split <;> omega

theorem splitSlot_reconstructTime (ms : Nat) {slot : Nat} (h : slot < 4096) :
    splitSlot (reconstructTime ms slot) = if slot % 64 = 0 then slot else slot - 1 := by
  rw [splitSlot, reconstructTime_mod ms h, slotNanoseconds_split_back]

theorem tick_eq_split (ns : Nat) : ns = splitMs ns * 1000000 + ns % 1000000 := (Nat.div_add_mod' ns 1000000).symm

/-- 64 of the 4096 slots are multiples of 64, since 4096 is 64 * 64. -/
theorem length_slots_multiple_of_64 : ((List.range 4096).filter fun slot => slot % 64 == 0).length = 64 := by
  have hcount := Nat.count_modEq_card 4096 (r := 64) (by decide) 0
  rw [Nat.count, List.countP_eq_length_filter] at hcount
  exact hcount

/-- Settles O21: the tick and T share their milliseconds, so the laws are those of the two offsets. -/
theorem reconstructedTimeIsCloseBelowTheTick : Obligations.ReconstructedTimeIsCloseBelowTheTick := by
  refine ⟨fun ns => ?_, length_slots_multiple_of_64⟩
  have hslot := splitSlot_lt ns
  have hback := splitSlot_reconstructTime (splitMs ns) hslot
  obtain ⟨hle, hge⟩ := slotNanoseconds_splitSlot ns
  have htick := tick_eq_split ns
  have hT : reconstructTime (splitMs ns) (splitSlot ns) = splitMs ns * 1000000 + slotNanoseconds (splitSlot ns) := rfl
  refine ⟨by omega, by omega, fun h1953 => ?_, splitMs_reconstructTime _ hslot, hback, ?_⟩
  · have hoff : slotNanoseconds (splitSlot ns) = 1708 := by rw [splitSlot, h1953]; rfl
    omega
  · rw [hback]
    split <;> omega

end Sys2Proof
end

section
/-! SUPPORT. The split of a tick and its order (42_generate.md R210 to R212, R219), GEN_V4 (R213), and the acquire and the
spin step of GEN_V7_STRICT (R217, R218). -/

namespace Sys2Proof

open Sys2Proof.Machine

/-! ### The split and the order of pairs (42_generate.md R210 to R212, R219) -/

theorem splitMs_le {ns : Nat} (h : ns < 2 ^ 63) : splitMs ns ≤ 9223372036854 := by
  unfold splitMs
  omega

/-- Settles O22: the bounds of the two fields, and the order by milliseconds first. -/
theorem splitIsMonotoneAndFits : Obligations.SplitIsMonotoneAndFits :=
  ⟨fun ns h => ⟨splitMs_le h, splitMs_lt h, Nat.le_of_lt_succ (splitSlot_lt ns)⟩, fun _ _ h => splitPair_mono h⟩

theorem laterPair_iff (m1 m2 : BitVec 48) (s1 s2 : BitVec 12) :
    laterPair m1 s1 m2 s2 = true ↔ m2.toNat < m1.toNat ∨ (m1 = m2 ∧ s2.toNat < s1.toNat) := by
  simp only [laterPair, Bool.or_eq_true, decide_eq_true_eq, Bool.and_eq_true, beq_iff_eq]

/-- A slot is below 2^12, so the order of pairs is that of the numbers with the slot as the low 12 bits. -/
theorem laterPair_iff_packed_lt (m1 m2 : BitVec 48) (s1 s2 : BitVec 12) :
    laterPair m1 s1 m2 s2 = true ↔ m2.toNat * 2 ^ 12 + s2.toNat < m1.toNat * 2 ^ 12 + s1.toNat := by
  have h1 := s1.isLt
  have h2 := s2.isLt
  rw [laterPair_iff, ← BitVec.toNat_inj]
  omega

/-- The first 8 bytes spread the packed pair by the version nibble, the same in every v7 identifier. -/
theorem first8_v7Ident_lt_iff (m1 m2 : BitVec 48) (s1 s2 : BitVec 12) (r1 r2 : Vector Byte 8) :
    first8 (v7Ident m2 s2 r2) < first8 (v7Ident m1 s1 r1) ↔
      m2.toNat * 2 ^ 12 + s2.toNat < m1.toNat * 2 ^ 12 + s1.toNat := by
  have h1 := s1.isLt
  have h2 := s2.isLt
  rw [first8_v7Ident, first8_v7Ident]
  omega

/-- Settles O28: all three orders are that of the packed pair. -/
theorem pairOrderIsTheOrderOfTheFirstEightBytes : Obligations.PairOrderIsTheOrderOfTheFirstEightBytes := by
  intro m1 m2 s1 s2 r1 r2
  refine ⟨laterPair_iff m1 m2 s1 s2, ?_, ?_⟩
  · rw [toNat_append_eq_add, toNat_append_eq_add]
    exact laterPair_iff_packed_lt m1 m2 s1 s2
  · exact (laterPair_iff_packed_lt m1 m2 s1 s2).trans (first8_v7Ident_lt_iff m1 m2 s1 s2 r1 r2).symm

/-! ### GEN_V4 (42_generate.md R213) -/

theorem exec_genV4 (s : State) :
    exec .genV4 s =
      .next (endedWith s { s.g with rngPos := s.g.rngPos + 16 } { s.port with id := v4Ident (s.fillBytes 16) } 0) := rfl

theorem getElem_v4Ident_six (r : Vector Byte 16) : (v4Ident r)[6] = (r[6] &&& 0x0F#8) ||| 0x40#8 := by
  simp [v4Ident]

theorem getElem_v4Ident_eight (r : Vector Byte 16) : (v4Ident r)[8] = (r[8] &&& 0x3F#8) ||| 0x80#8 := by
  simp [v4Ident]

/-- Only the bytes of the version and the variant differ from the random bytes. -/
theorem byteAt_v4Ident_of_ne (r : Vector Byte 16) {i : Nat} (h6 : i ≠ 6) (h8 : i ≠ 8) :
    byteAt (v4Ident r) i = byteAt r i := by
  simp [byteAt, v4Ident, Vector.getElem?_set_ne, h6.symm, h8.symm]

/-- The byte that holds the version has the high nibble `0100`. -/
theorem hiNibble_versionByte (y : Byte) : hiNibble ((y &&& 0x0F#8) ||| 0x40#8) = 4 := by revert y; decide

theorem versionOf_v4Ident (r : Vector Byte 16) : versionOf (v4Ident r) = 4 := by
  rw [versionOf, getElem_v4Ident_six, hiNibble_versionByte]

theorem variantOf_v4Ident (r : Vector Byte 16) : variantOf (v4Ident r) = 2 := by
  rw [variantOf, getElem_v4Ident_eight]
  exact (variantByte_fields r[8]).1

/-- A value that is neither nil nor max is well-formed by its version and variant alone (00_scope.md R19). -/
theorem wellFormed_of_version_variant {b : Ident} (hver : versionOf b = 4 ∨ versionOf b = 7) (hvar : variantOf b = 2) :
    b.wellFormed = true := by
  unfold versionOf hiNibble at hver
  unfold variantOf at hvar
  simp only [Ident.wellFormed, Bool.or_eq_true, Bool.and_eq_true, beq_iff_eq]
  exact .inr ⟨hver, hvar⟩

/-- Settles O23: the drawn bytes with the bytes of the version and the variant replaced have version 4 and variant 2. -/
theorem genV4WritesAWellFormedRandomIdentifier : Obligations.GenV4WritesAWellFormedRandomIdentifier := by
  refine ⟨rfl, fun s => ⟨_, exec_genV4 s, fun i _ h6 h8 => byteAt_v4Ident_of_ne _ h6 h8, getElem_v4Ident_six _,
    getElem_v4Ident_eight _, ?_⟩, by decide⟩
  exact wellFormed_of_version_variant (.inl (versionOf_v4Ident _)) (variantOf_v4Ident _)

/-! ### The acquire step of GEN_V7_STRICT (42_generate.md R217) -/

theorem strictAcquire_of_free {s : State} (h : s.g.lock = none) :
    s.strictAcquire =
      { s with
        g := { s.g with lock := some s.env.cur }
        ports := s.ports.set s.env.cur { s.port with seq := .strictSpin } } := by
  rw [State.strictAcquire, h]
  rfl

theorem strictAcquire_of_held {s : State} {p : Nat} (h : s.g.lock = some p) : s.strictAcquire = s := by
  rw [State.strictAcquire, h]

theorem exec_genV7Strict_of_acquiring {s : State} (hseq : s.port.seq = .strictAcq) :
    exec .genV7Strict s = .next s.strictAcquire := by
  simp only [exec, execGenV7Strict, hseq]

theorem portStep_of_strictAcq {s : State} {p : Nat} {q : Port} (hready : s.g.phase = .ready)
    (hq : s.ports[p]? = some q) (hseq : q.seq = .strictAcq) : s.portStep p = .next (s.withCurrent p).strictAcquire := by
  have hport : (s.withCurrent p).port = q := port_eq_of_getElem? hq
  rw [portStep_eq_runOpcode hready hq (by rw [hseq]; rfl), runOpcode_of_decode_ok (i := .genV7Strict) rfl]
  exact exec_genV7Strict_of_acquiring (hport ▸ hseq)

/-- Settles O26: the lock decides what the acquire step does, and a port of a block that is not READY takes no step. -/
theorem strictAcquireTakesAFreeLock : Obligations.StrictAcquireTakesAFreeLock := by
  refine ⟨fun s p q hq hseq => ⟨fun hfree hready => ?_, fun hstuck => ?_⟩,
    fun s hseq => ⟨fun hfree => ?_, fun p hheld => ?_⟩⟩
  · have hport : (s.withCurrent p).port = q := port_eq_of_getElem? hq
    rw [portStep_of_strictAcq hready hq hseq, strictAcquire_of_free (s := s.withCurrent p) hfree, hport]
    rfl
  · by_cases hready : s.g.phase = .ready
    · obtain ⟨k, hheld⟩ := Option.ne_none_iff_exists'.mp (hstuck.resolve_right (not_not_intro hready))
      refine ⟨s.withCurrent p, ?_, rfl⟩
      rw [portStep_of_strictAcq hready hq hseq, strictAcquire_of_held (s := s.withCurrent p) hheld]
    · exact ⟨s, portStep_disabled (.inl hready), rfl⟩
  · rw [exec_genV7Strict_of_acquiring hseq, strictAcquire_of_free hfree]
  · rw [exec_genV7Strict_of_acquiring hseq, strictAcquire_of_held hheld]

/-! ### The spin step of GEN_V7_STRICT (42_generate.md R218) -/

/-- The spin step works on the tick that it sampled, with the record of the outside world after the sample. -/
theorem exec_genV7Strict_of_spinning {s : State} {ns : BitVec 64} {e : Env} (hseq : s.port.seq = .strictSpin)
    (hsample : Sampled s ns e) : exec .genV7Strict s = .next ((s.setEnv e).strictSpinOn ns) := by
  rw [← (afterNow_of_sampled hsample).1, ← nowValue_of_sampled hsample]
  simp only [exec, execGenV7Strict, hseq]

/-- The pair of the tick `ns`, as the registers hold it, is later than the last-issued pair. -/
def TickIsLater (g : Shared) (ns : BitVec 64) : Prop :=
  laterPair (BitVec.ofNat 48 (splitMs ns.toNat)) (BitVec.ofNat 12 (splitSlot ns.toNat)) g.lastMs g.lastSlot = true

/-- On a non-negative tick the registers cut off nothing, so its pair can be compared as numbers. -/
theorem tickIsLater_iff (g : Shared) {ns : BitVec 64} (h0 : 0 ≤ ns.toInt) :
    TickIsLater g ns ↔ g.lastMs.toNat < splitMs ns.toNat ∨
      (g.lastMs.toNat = splitMs ns.toNat ∧ g.lastSlot.toNat < splitSlot ns.toNat) := by
  rw [TickIsLater, laterPair_iff, toNat_msRegister h0, toNat_slotRegister, ← BitVec.toNat_inj, toNat_msRegister h0,
    eq_comm (a := splitMs ns.toNat)]

/-- A non-negative tick passes the sign test. -/
theorem not_slt_zero_of_nonneg {ns : BitVec 64} (h0 : 0 ≤ ns.toInt) : ¬ ns.slt 0 = true :=
  fun hs => (slt_zero_iff ns).mp hs h0

theorem strictSpinOn_of_neg (s : State) {ns : BitVec 64} (h : ¬ 0 ≤ ns.toInt) :
    s.strictSpinOn ns = s.raiseFatal .preEpochTime := if_pos ((slt_zero_iff ns).mpr h)

theorem strictSpinOn_of_later {s : State} {ns : BitVec 64} (h0 : 0 ≤ ns.toInt) (h : TickIsLater s.g ns) :
    s.strictSpinOn ns =
      State.completeV7
        (s.setShared (s.g.recordPair (BitVec.ofNat 48 (splitMs ns.toNat)) (BitVec.ofNat 12 (splitSlot ns.toNat)))) ns :=
  (if_neg (not_slt_zero_of_nonneg h0)).trans (if_pos h)

theorem strictSpinOn_of_not_later {s : State} {ns : BitVec 64} (h0 : 0 ≤ ns.toInt) (h : ¬ TickIsLater s.g ns) :
    s.strictSpinOn ns = s := (if_neg (not_slt_zero_of_nonneg h0)).trans (if_neg h)

/-- Settles O27: the sign test and the comparison of the tick's pair decide between the three outcomes. -/
theorem strictSpinCompletesOnlyOnALaterPair : Obligations.StrictSpinCompletesOnlyOnALaterPair := by
  intro s ns e hseq hsample ms slot later
  have hexec := exec_genV7Strict_of_spinning hseq hsample
  have hlater (h0 : 0 ≤ ns.toInt) : TickIsLater (s.setEnv e).g ns ↔ later := tickIsLater_iff s.g h0
  refine ⟨fun hneg => ?_, fun h0 hl => ⟨v7OfTick ns (s.fillBytes 8), isV7_v7OfTick h0 _, ?_⟩, fun h0 hl => ?_,
    fun hphase p => portStep_disabled (.inl hphase)⟩
  · rw [hexec, strictSpinOn_of_neg _ (not_le.mpr hneg)]
    rfl
  · rw [hexec, strictSpinOn_of_later h0 ((hlater h0).mpr hl)]
    exact congrArg Host.Outcome.next (completeV7_setEnv (s.setShared (s.g.recordPair (BitVec.ofNat 48 ms)
      (BitVec.ofNat 12 slot))) (afterNow_of_sampled hsample).2 ns)
  · rw [hexec, strictSpinOn_of_not_later h0 (mt (hlater h0).mp hl)]
    rfl

end Sys2Proof
end

section
/-! SUPPORT. The bit-repack transform (43_repack.md): an identifier is its content, its version and its variant nibble;
shift_k and unshift_k move these three between the identifier and a 16-byte form, and the six commands apply them. -/

namespace Sys2Proof

open Sys2Proof.Machine

/-! ### The nibble in the last byte (43_repack.md R244, R248, R251) -/

/-- unshift_k reads the variant nibble from bits 7:4, 6:3 or 5:2. -/
theorem hiNibble_shiftLeft (y : Byte) {k : Nat} (hk : k < 3) : hiNibble (y <<< k) = y.extractLsb' (4 - k) 4 := by
  obtain rfl | rfl | rfl : k = 0 ∨ k = 1 ∨ k = 2 := by omega
  all_goals revert y; decide

/-- Moving the variant nibble out of the last byte and back clears the bits that unshift_k ignores. -/
theorem shiftRight_hiNibble_shiftLeft (y : Byte) {k : Nat} (hk : k < 3) :
    (hiNibble (y <<< k) ++ 0#4 : Byte) >>> k = y &&& (0xF0#8 >>> k) := by
  obtain rfl | rfl | rfl : k = 0 ∨ k = 1 ∨ k = 2 := by omega
  all_goals revert y; decide

/-- A mask keeps a value exactly when no bit outside the mask is set. -/
theorem and_mask_eq_self_iff {w : Nat} (y m : BitVec w) : y &&& m = y ↔ y &&& ~~~m = 0 := by
  constructor
  · intro h
    rw [← h, BitVec.and_assoc, BitVec.and_not_self]
    exact BitVec.and_zero
  · intro h
    calc y &&& m = (y &&& m) ||| (y &&& ~~~m) := by rw [h]; exact BitVec.or_zero.symm
      _ = y &&& (m ||| ~~~m) := BitVec.and_or_distrib_left.symm
      _ = y := by rw [BitVec.or_not_self, BitVec.and_allOnes]

/-! ### The last byte of a 16-byte form -/

theorem pop_push_eq_set (q : Ident) (y : Byte) : q.pop.push y = q.set 15 y := by
  ext i hi
  by_cases h : i = 15
  · subst h; simp
  · have hlt : i < 15 := by omega
    simp [Vector.getElem_push_lt hlt, Vector.getElem_set_ne _ _ (Ne.symm h)]

theorem set_last_eq_self_iff (q : Ident) (y : Byte) : q.set 15 y = q ↔ y = q[15] := by
  constructor
  · intro h
    have hlast : (q.set 15 y)[15] = q[15] := by rw [h]
    rwa [Vector.getElem_set_self] at hlast
  · rintro rfl
    exact Vector.set_getElem_self _

/-! ### An identifier is content, version and variant nibble (43_repack.md R240) -/

theorem eq_of_content_version_variant {b c : Ident} (hcontent : packContent b = packContent c)
    (hversion : versionOf b = versionOf c) (hvariant : variantNibbleOf b = variantNibbleOf c) : b = c := by
  have hcontent' : contentNumber (numberOfIdent b) = contentNumber (numberOfIdent c) := by
    rw [← numberBE_packContent, ← numberBE_packContent, hcontent]
  have hversion' : numberOfIdent b / 2 ^ 76 % 16 = numberOfIdent c / 2 ^ 76 % 16 := by
    rw [← toNat_versionOf, ← toNat_versionOf, hversion]
  have hvariant' : numberOfIdent b / 2 ^ 60 % 16 = numberOfIdent c / 2 ^ 60 % 16 := by
    rw [← toNat_variantNibbleOf, ← toNat_variantNibbleOf, hvariant]
  have hnumber : numberOfIdent b = numberOfIdent c := by unfold contentNumber at hcontent'; omega
  rw [← identOfNumber_numberOfIdent b, hnumber, identOfNumber_numberOfIdent]

/-! ### unshift_k and shift_k by these three parts (43_repack.md R244, R248) -/

@[simp] theorem packContent_unshiftBytes (k : Nat) (q : Ident) (v : BitVec 4) :
    packContent (unshiftBytes k q v) = q.pop := by
  have hpop : q.pop.toList =
      [q[0], q[1], q[2], q[3], q[4], q[5], q[6], q[7], q[8], q[9], q[10], q[11], q[12], q[13], q[14]] := by
    rw [Vector.toList_pop, toList_ident]
    rfl
  apply Vector.toList_inj.mp
  rw [hpop]
  simp [packContent, unshiftBytes]

@[simp] theorem versionOf_unshiftBytes (k : Nat) (q : Ident) (v : BitVec 4) : versionOf (unshiftBytes k q v) = v :=
  hiNibble_append v _

@[simp] theorem variantNibbleOf_unshiftBytes (k : Nat) (q : Ident) (v : BitVec 4) :
    variantNibbleOf (unshiftBytes k q v) = hiNibble (q[15] <<< k) :=
  hiNibble_append _ _

@[simp] theorem pop_shiftBytes (k : Nat) (b : Ident) : (shiftBytes k b).pop = packContent b := Vector.pop_push

@[simp] theorem getElem_shiftBytes_last (k : Nat) (b : Ident) :
    (shiftBytes k b)[15] = (variantNibbleOf b ++ 0#4) >>> k := Vector.getElem_push_eq

/-! ### The two transforms undo each other (43_repack.md R249, R251) -/

theorem unshiftBytes_shiftBytes (b : Ident) {k : Nat} (hk : k < 3) :
    unshiftBytes k (shiftBytes k b) (versionOf b) = b := by
  apply eq_of_content_version_variant
  · rw [packContent_unshiftBytes, pop_shiftBytes]
  · rw [versionOf_unshiftBytes]
  · rw [variantNibbleOf_unshiftBytes, getElem_shiftBytes_last, hiNibble_shift_back _ k hk]

theorem shiftBytes_unshiftBytes (q : Ident) (v : BitVec 4) {k : Nat} (hk : k < 3) :
    shiftBytes k (unshiftBytes k q v) = q.set 15 (q[15] &&& (0xF0#8 >>> k)) := by
  rw [shiftBytes, packContent_unshiftBytes, variantNibbleOf_unshiftBytes, shiftRight_hiNibble_shiftLeft _ hk,
    pop_push_eq_set]

theorem shiftBytes_unshiftBytes_eq_self_iff (q : Ident) (v : BitVec 4) {k : Nat} (hk : k < 3) :
    shiftBytes k (unshiftBytes k q v) = q ↔ q[15] &&& ~~~(0xF0#8 >>> k) = 0 := by
  rw [shiftBytes_unshiftBytes q v hk, set_last_eq_self_iff, and_mask_eq_self_iff]

/-- Settles O34: shift_k is a left inverse of unshift_k on the inputs whose ignored bits are 0. -/
theorem shiftUndoesUnshiftUpToIgnoredBits : Obligations.ShiftUndoesUnshiftUpToIgnoredBits := by
  intro k hk kept
  refine ⟨fun q v => ⟨versionOf_unshiftBytes k q v, shiftBytes_unshiftBytes q v hk,
    shiftBytes_unshiftBytes_eq_self_iff q v hk⟩, fun q q' v v' hq hq' heq => ⟨?_, ?_⟩⟩
  · rw [← (shiftBytes_unshiftBytes_eq_self_iff q v hk).mpr hq, heq,
      (shiftBytes_unshiftBytes_eq_self_iff q' v' hk).mpr hq']
  · rw [← versionOf_unshiftBytes k q v, heq, versionOf_unshiftBytes]

/-! ### The shift commands (43_repack.md R241 to R243) -/

theorem shiftStep_eq (s : State) (k : Nat) :
    s.shiftStep k = endedWith s s.g
      { s.port with
        obuf := bytesPadded 64 (shiftBytes k s.port.id).toList, olen := 16, resVer := versionOf s.port.id } 0 := by
  have hlen : BitVec.ofNat 8 (shiftBytes k s.port.id).toList.length = 16 :=
    congrArg (BitVec.ofNat 8) Vector.length_toList
  rw [← hlen]
  rfl

theorem exec_shiftCommand {ik : Instr × Nat} (h : ik ∈ [(Instr.shift, 0), (.shiftB32, 1), (.shiftB64, 2)])
    (s : State) : exec ik.1 s = .next (s.shiftStep ik.2) := by
  simp only [List.mem_cons, List.not_mem_nil, or_false] at h
  rcases h with rfl | rfl | rfl <;> rfl

theorem take_toList_shiftBytes (k : Nat) (b : Ident) : (shiftBytes k b).toList.take 15 = (packContent b).toList := by
  rw [← pop_shiftBytes k b, Vector.toList_pop, List.dropLast_eq_take, Vector.length_toList]

/-- Settles O31: OBUF takes `shiftBytes`, whose parts are digits of the identifier's number U. -/
theorem shiftCommandsMoveTheVersionAndVariantNibbles : Obligations.ShiftCommandsMoveTheVersionAndVariantNibbles := by
  intro s ik hik
  refine ⟨shiftBytes ik.2 s.port.id, versionOf s.port.id,
    (exec_shiftCommand hik s).trans (congrArg Host.Outcome.next (shiftStep_eq s ik.2)), toNat_versionOf _, ?_, ?_⟩
  · rw [take_toList_shiftBytes, numberBE_packContent]
  · rw [getElem_shiftBytes_last, BitVec.toNat_ushiftRight, toNat_append_eq_add, toNat_variantNibbleOf,
      Nat.shiftRight_eq_div_pow]
    rfl

/-! ### The unshift commands (43_repack.md R245 to R247) -/

theorem exec_unshiftCommand {ik : Instr × Nat} (h : ik ∈ [(Instr.unshift, 0), (.unshiftB32, 1), (.unshiftB64, 2)])
    (s : State) : ik.2 < 3 ∧ exec ik.1 s = .next (s.unshiftStep ik.2) := by
  simp only [List.mem_cons, List.not_mem_nil, or_false] at h
  rcases h with rfl | rfl | rfl <;> exact ⟨by decide, rfl⟩

theorem toList_input16 (p : Port) : p.input16.toList = p.ibuf.toList.take 16 :=
  toList_bytesPadded_of_length (by simp)

theorem toList_pop_input16 (p : Port) : p.input16.pop.toList = p.ibuf.toList.take 15 := by
  rw [Vector.toList_pop, toList_input16, List.dropLast_take (by simp)]

theorem getElem_input16_last (p : Port) : p.input16[15] = byteAt p.ibuf 15 := by
  have hlen : 15 < (p.ibuf.toList.take 16).length := by simp
  rw [← byteAt_eq_getElem, Port.input16, byteAt_bytesPadded_lt (by decide) hlen, byteAt_eq_getElem _ (by decide),
    List.getElem_take, Vector.getElem_toList]

/-- Settles O32: ID takes `unshiftBytes`, whose three parts are read off IBUF[0..15] and ARG_VER. -/
theorem unshiftCommandsRebuildTheIdentifier : Obligations.UnshiftCommandsRebuildTheIdentifier := by
  intro s ik hik
  obtain ⟨hk, hexec⟩ := exec_unshiftCommand hik s
  refine ⟨unshiftBytes ik.2 s.port.input16 s.port.argVer, hexec, ?_, versionOf_unshiftBytes _ _ _, ?_⟩
  · rw [← numberBE_packContent, packContent_unshiftBytes, toList_pop_input16]
  · rw [variantNibbleOf_unshiftBytes, hiNibble_shiftLeft _ hk, getElem_input16_last]

/-! ### Shift, the host's copy, and unshift (43_repack.md R249) -/

theorem copyShiftToUnshift_port {s : State} (h : s.env.cur < s.nPorts) :
    (copyShiftToUnshift s).port =
      { s.port with
        ibuf := bytesPadded 64 (s.port.obuf.toList.take 16 ++ s.port.ibuf.toList.drop 16)
        argVer := s.port.resVer } :=
  State.port_setPort h _

/-- The first bytes of a padded array are the first bytes of its list. -/
theorem take_toList_bytesPadded {n m : Nat} {l : List Byte} (hn : m ≤ n) (hl : m ≤ l.length) :
    (bytesPadded n l).toList.take m = l.take m := by
  rw [toList_bytesPadded, List.take_take, Nat.min_eq_left hn, List.take_append_of_le_length hl]

/-- The copy hands the unshift command what the shift command put out. -/
theorem input16_copyShiftToUnshift {s : State} (h : s.env.cur < s.nPorts) {f : Ident}
    (hobuf : s.port.obuf = bytesPadded 64 f.toList) : (copyShiftToUnshift s).port.input16 = f := by
  have hf : f.toList.length = 16 := Vector.length_toList
  have hout : s.port.obuf.toList.take 16 = f.toList := by
    rw [hobuf, take_toList_bytesPadded (by decide) hf.ge, List.take_of_length_le hf.le]
  have hin : (copyShiftToUnshift s).port.ibuf.toList.take 16 = f.toList := by
    rw [copyShiftToUnshift_port h, hout, take_toList_bytesPadded (by decide) (by simp), List.take_left' hf]
  rw [Port.input16, hin, bytesPadded_toList]

theorem unshiftStep_id {s : State} (h : s.env.cur < s.nPorts) (k : Nat) :
    (s.unshiftStep k).port.id = unshiftBytes k s.port.input16 s.port.argVer :=
  congrArg Port.id (State.port_setPort h _)

theorem unshiftStep_after_shiftStep_id {s : State} (h : s.env.cur < s.nPorts) {k : Nat} (hk : k < 3) :
    ((copyShiftToUnshift (s.shiftStep k)).unshiftStep k).port.id = s.port.id := by
  have hport : (s.shiftStep k).port = _ := State.port_setPort h _
  have ht : (s.shiftStep k).env.cur < (s.shiftStep k).nPorts := (State.setPort_nPorts s _).symm ▸ h
  have hu : (copyShiftToUnshift (s.shiftStep k)).env.cur < (copyShiftToUnshift (s.shiftStep k)).nPorts :=
    (State.setPort_nPorts (s.shiftStep k) _).symm ▸ ht
  have hin : (copyShiftToUnshift (s.shiftStep k)).port.input16 = shiftBytes k s.port.id :=
    input16_copyShiftToUnshift ht (congrArg Port.obuf hport)
  have hver : (copyShiftToUnshift (s.shiftStep k)).port.argVer = versionOf s.port.id := by
    rw [copyShiftToUnshift_port ht, hport]
    rfl
  rw [unshiftStep_id hu, hin, hver, unshiftBytes_shiftBytes _ hk]

/-- Settles O33: the function law, carried through OBUF, the copy and IBUF. -/
theorem unshiftUndoesShift : Obligations.UnshiftUndoesShift := by
  refine ⟨fun b k hk => unshiftBytes_shiftBytes b hk, fun s h ij hij => ?_⟩
  simp only [List.mem_cons, List.not_mem_nil, or_false] at hij
  rcases hij with rfl | rfl | rfl
  · exact ⟨_, _, rfl, rfl, unshiftStep_after_shiftStep_id h (k := 0) (by decide)⟩
  · exact ⟨_, _, rfl, rfl, unshiftStep_after_shiftStep_id h (k := 1) (by decide)⟩
  · exact ⟨_, _, rfl, rfl, unshiftStep_after_shiftStep_id h (k := 2) (by decide)⟩

end Sys2Proof
end

section
/-! SUPPORT. The ends of a parse command (44_parse.md R270), the check of a decoded value (R290), and FROM_BYTES (R291). -/

namespace Sys2Proof

open Sys2Proof.Machine

/-! ### The two ends of a parse command (44_parse.md R270, 60_exceptions.md R357) -/

theorem finishParse_ok (s : State) (b : Ident) :
    s.finishParse (.ok b) = endedWith s s.g { s.port with id := b } 0 := rfl

theorem finishParse_error (s : State) (e : ParseError) :
    s.finishParse (.error e) = endedWith s s.g { s.port with id := Vector.replicate 16 0 } e.code := rfl

/-- The codes 1 to 5 of the recoverable failures (60_exceptions.md R350). -/
theorem code_mem (e : ParseError) : e.code ∈ ([1, 2, 3, 4, 5] : List (BitVec 4)) := by cases e <;> decide

theorem parseInput_of_tooLong {p : Port} (h : 64 < p.ilen.toNat) (parser : List Byte → Except ParseError Ident) :
    p.parseInput parser = .error .malformedLength :=
  if_pos (decide_eq_true h)

theorem parseInput_of_fits {p : Port} (h : p.ilen.toNat ≤ 64) (parser : List Byte → Except ParseError Ident) :
    p.parseInput parser = parser (p.ibuf.toList.take p.ilen.toNat) :=
  if_neg fun hlong => absurd (of_decide_eq_true hlong) (Nat.not_lt.mpr h)

/-! ### The check of a decoded value (00_scope.md R19, 44_parse.md R290) -/

theorem wellFormed_iff (b : Ident) :
    b.wellFormed = true ↔ b = Ident.nil ∨ b = Ident.max ∨ ((versionOf b = 4 ∨ versionOf b = 7) ∧ variantOf b = 2) := by
  simp only [Ident.wellFormed, Bool.or_eq_true, Bool.and_eq_true, beq_iff_eq, or_assoc, versionOf, hiNibble, variantOf]
  rfl

theorem versionOf_eq_iff (b : Ident) (v : BitVec 4) : versionOf b = v ↔ b[6].toNat / 16 = v.toNat := by
  rw [versionOf, ← BitVec.toNat_inj, toNat_hiNibble]

theorem variantOf_eq_two_iff (b : Ident) : variantOf b = 2 ↔ b[8].toNat / 64 = 2 := by
  rw [variantOf, ← BitVec.toNat_inj, toNat_topBits, toNat_hiNibble, Nat.div_div_eq_div_mul]
  rfl

theorem validate_of_wellFormed {b : Ident} (h : b.wellFormed = true) : validate b = none := by
  obtain hnil | hmax | ⟨hver, hvar⟩ := (wellFormed_iff b).mp h
  · exact if_pos (.inl hnil)
  · exact if_pos (.inr hmax)
  · rw [validate, if_neg (not_not_intro hver), if_neg (not_not_intro hvar), ite_self]

section
variable {b : Ident} (hwf : b.wellFormed = false)
include hwf

theorem not_literal_of_not_wellFormed : ¬ (b = Ident.nil ∨ b = Ident.max) := fun h =>
  Bool.eq_false_iff.mp hwf ((wellFormed_iff b).mpr (h.imp_right .inl))

theorem validate_of_version (hver : ¬ (versionOf b = 4 ∨ versionOf b = 7)) :
    validate b = some .unsupportedVersion := by
  rw [validate, if_neg (not_literal_of_not_wellFormed hwf), if_pos hver]

theorem validate_of_variant (hver : versionOf b = 4 ∨ versionOf b = 7) : validate b = some .invalidVariant := by
  have hvar : variantOf b ≠ 2 := fun h => Bool.eq_false_iff.mp hwf (wellFormed_of_version_variant hver h)
  rw [validate, if_neg (not_literal_of_not_wellFormed hwf), if_neg (not_not_intro hver), if_pos hvar]

end

theorem validate_eq_none_iff (b : Ident) : validate b = none ↔ b.wellFormed = true := by
  refine ⟨fun hnone => ?_, validate_of_wellFormed⟩
  by_contra hwf
  rw [Bool.not_eq_true] at hwf
  by_cases hver : versionOf b = 4 ∨ versionOf b = 7
  · cases (validate_of_variant hwf hver).symm.trans hnone
  · cases (validate_of_version hwf hver).symm.trans hnone

/-- Settles O43: the version and the variant of R20 are the top bits of bytes 6 and 8. -/
theorem validateAcceptsExactlyTheWellFormed : Obligations.ValidateAcceptsExactlyTheWellFormed := by
  intro b
  have hver : b[6].toNat / 16 = 4 ∨ b[6].toNat / 16 = 7 ↔ versionOf b = 4 ∨ versionOf b = 7 :=
    (or_congr (versionOf_eq_iff b 4) (versionOf_eq_iff b 7)).symm
  rw [hver, ← variantOf_eq_two_iff]
  exact ⟨validate_eq_none_iff b, wellFormed_iff b, validate_of_version, validate_of_variant⟩

theorem validated_of_wellFormed {b : Ident} (h : b.wellFormed = true) : validated b = .ok b := by
  rw [validated, validate_of_wellFormed h]

theorem wellFormed_of_validated {b c : Ident} (h : validated b = .ok c) : c.wellFormed = true := by
  unfold validated at h
  split at h
  · rename_i hnone
    obtain rfl := Except.ok.inj h
    exact (validate_eq_none_iff b).mp hnone
  · cases h

theorem validated_ne_malformedSeparator (b : Ident) : validated b ≠ .error .malformedSeparator := by
  unfold validated validate
  split_ifs <;> simp

/-! ### FROM_BYTES (44_parse.md R291) -/

theorem exec_fromBytes_sixteen {s : State} (h : s.port.ilen = 16) :
    exec .fromBytes s = .next (endedWith s s.g { s.port with id := s.port.input16 } 0) :=
  congrArg (fun r => Host.Outcome.next (s.finishParse r)) (if_pos h)

theorem exec_fromBytes_other {s : State} (h : s.port.ilen ≠ 16) :
    exec .fromBytes s = .next (endedWith s s.g { s.port with id := Vector.replicate 16 0 } 1) :=
  congrArg (fun r => Host.Outcome.next (s.finishParse r)) (if_neg h)

theorem byteAt_input16 (p : Port) {i : Nat} (h : i < 16) : byteAt p.input16 i = byteAt p.ibuf i := by
  have hlen : i < (p.ibuf.toList.take 16).length := by simp; omega
  rw [Port.input16, byteAt_bytesPadded_lt h hlen, byteAt_eq_getElem _ (by omega), List.getElem_take,
    Vector.getElem_toList]

/-- Settles O36: the length is the only condition, and the bytes go to ID as they stand. -/
theorem fromBytesTakesExactlySixteenBytes : Obligations.FromBytesTakesExactlySixteenBytes := fun s =>
  ⟨fun h => ⟨s.port.input16, exec_fromBytes_sixteen h, fun _ hi => byteAt_input16 s.port hi⟩, exec_fromBytes_other⟩

end Sys2Proof
end

section
/-! SUPPORT. PARSE before the forms matter: the quotes, the dispatch on the stripped length, and the two ends of the command
(44_parse.md R271 to R274, R288). -/

namespace Sys2Proof

open Sys2Proof.Machine

/-! ### Quotes (44_parse.md R272) -/

theorem charAt_zero_eq_head (l : List Byte) : charAt l 0 = l.head?.getD 0 := by
  cases l <;> rfl

theorem charAt_last_eq_getLast (l : List Byte) : charAt l (l.length - 1) = l.getLast?.getD 0 := by
  rw [List.getLast?_eq_getElem?]
  rfl

theorem stripQuotes_quoted (l : List Byte) : stripQuotes .paired (0x22 :: l ++ [0x22]) = l := by
  have hlast : charAt (0x22 :: l ++ [0x22]) ((0x22 :: l ++ [0x22]).length - 1) = quoteByte := by
    rw [charAt_last_eq_getLast, List.getLast?_append]
    rfl
  have hstrip : slice (0x22 :: l ++ [0x22]) 1 ((0x22 :: l ++ [0x22]).length - 2) = l := by simp [slice]
  exact (if_pos ⟨by simp, rfl, hlast⟩).trans hstrip

/-- A byte other than 0 at an end is the byte there. -/
theorem eq_some_of_getD_eq {o : Option Byte} {c : Byte} (hc : c ≠ 0) (h : o.getD 0 = c) : o = some c := by
  cases o with
  | none => exact absurd h.symm hc
  | some d => exact congrArg some h

theorem stripQuotes_unquoted {l : List Byte}
    (h : l.head? ≠ some 0x22 ∨ l.getLast? ≠ some 0x22 ∨ l.length < 2) : stripQuotes .paired l = l := by
  refine if_neg fun ⟨hlen, hfirst, hlast⟩ => ?_
  rw [charAt_zero_eq_head] at hfirst
  rw [charAt_last_eq_getLast] at hlast
  rcases h with h | h | h
  · exact h (eq_some_of_getD_eq (by decide) hfirst)
  · exact h (eq_some_of_getD_eq (by decide) hlast)
  · omega

theorem length_stripQuotes (l : List Byte) :
    (stripQuotes .paired l).length = l.length ∨ (stripQuotes .paired l).length = l.length - 2 := by
  simp only [stripQuotes]
  split_ifs
  · exact .inr (by simp only [slice, List.length_take, List.length_drop]; omega)
  · exact .inl rfl

theorem parseText_quoted (l : List Byte) : parseText (0x22 :: l ++ [0x22]) = parseStripped l :=
  congrArg parseStripped (stripQuotes_quoted l)

theorem parseText_unquoted {l : List Byte}
    (h : l.head? ≠ some 0x22 ∨ l.getLast? ≠ some 0x22 ∨ l.length < 2) : parseText l = parseStripped l :=
  congrArg parseStripped (stripQuotes_unquoted h)

/-! ### The length (44_parse.md R273, R274, R288) -/

theorem parseStripped_of_length_16 {l : List Byte} (h : l.length = 16) :
    parseStripped l = validated (bytesPadded 16 l) :=
  if_pos h

theorem parseStripped_of_length_36 {l : List Byte} (h : l.length = 36) : parseStripped l = parseCanonical l := by
  simp [parseStripped, h]

theorem parseStripped_of_other_length {l : List Byte} (h : l.length ∉ [16, 22, 26, 36]) :
    parseStripped l = .error .malformedLength := by
  simp only [List.mem_cons, List.not_mem_nil, or_false, not_or] at h
  obtain ⟨h16, h22, h26, h36⟩ := h
  rw [parseStripped, if_neg h16, if_neg h36, if_neg h26, if_neg h22]

theorem parseStripped_toList (b : Ident) : parseStripped b.toList = validated b := by
  rw [parseStripped_of_length_16 Vector.length_toList, bytesPadded_toList]

theorem parseText_of_other_length {l : List Byte} (h : l.length ∉ [16, 22, 26, 36])
    (h' : l.length - 2 ∉ [16, 22, 26, 36]) : parseText l = .error .malformedLength := by
  refine parseStripped_of_other_length ?_
  rcases length_stripQuotes l with hl | hl
  · exact hl.symm ▸ h
  · exact hl.symm ▸ h'

/-! ### The command (44_parse.md R271, 60_exceptions.md R350, R357) -/

/-- The five failures with their codes, spelled out. -/
theorem code_of_mem {e : ParseError} {code : BitVec 4}
    (h : (e, code) ∈ [(.malformedLength, 1), (.malformedSeparator, 2), (.unsupportedVersion, 3), (.invalidVariant, 4),
      (ParseError.invalidDigit, 5)]) : e.code = code := by
  simp only [List.mem_cons, Prod.mk.injEq, List.not_mem_nil, or_false] at h
  rcases h with ⟨rfl, rfl⟩ | ⟨rfl, rfl⟩ | ⟨rfl, rfl⟩ | ⟨rfl, rfl⟩ | ⟨rfl, rfl⟩ <;> rfl

theorem exec_parse_tooLong {s : State} (h : 64 < s.port.ilen.toNat) :
    exec .parse s = .next (endedWith s s.g { s.port with id := Vector.replicate 16 0 } 1) :=
  congrArg (fun r => Host.Outcome.next (s.finishParse r)) (parseInput_of_tooLong h parseText)

theorem exec_parse_fits {s : State} (h : s.port.ilen.toNat ≤ 64) :
    exec .parse s = .next (s.finishParse (parseText (s.port.ibuf.toList.take s.port.ilen.toNat))) :=
  congrArg (fun r => Host.Outcome.next (s.finishParse r)) (parseInput_of_fits h parseText)

/-- Settles O37: the two ends of the command, the quotes, and the lengths. -/
theorem parseDispatchesOnTheStrippedLength : Obligations.ParseDispatchesOnTheStrippedLength := by
  refine ⟨fun s => exec_parse_tooLong, fun s hlen => ⟨fun b hr => ?_, fun e code hr hcode => ?_⟩,
    fun l => parseStripped_of_other_length, parseText_quoted, fun l => parseText_unquoted, fun l hlen => ?_,
    parseStripped_toList⟩
  · rw [exec_parse_fits hlen, hr, finishParse_ok]
  · rw [exec_parse_fits hlen, hr, finishParse_error, code_of_mem hcode]
  · have hother : ∀ n ∈ [0, 1, 2, 15, 17, 35, 37, 39], n ∉ [16, 22, 26, 36] ∧ n - 2 ∉ [16, 22, 26, 36] := by decide
    obtain ⟨h, h'⟩ := hother _ hlen
    exact parseText_of_other_length h h'

end Sys2Proof
end

section
/-! SUPPORT. The digits of a string and the digits of its number, and the canonical form (44_parse.md R275 to R280). -/

namespace Sys2Proof

open Sys2Proof.Machine

/-! ### The digits of a string -/

/-- A string has digit values exactly when each of its characters has one. -/
theorem digitValues_eq_some_iff {value : Byte → Option Nat} {l : List Byte} {ds : List Nat} :
    digitValues value l = some ds ↔ l.map value = ds.map some := by
  induction l generalizing ds with
  | nil => cases ds <;> simp [digitValues]
  | cons c cs ih =>
    cases ds with
    | nil => simp only [digitValues]; split <;> simp
    | cons d ds =>
      rw [List.map_cons, List.map_cons, List.cons.injEq, ← ih, digitValues]
      split
      · rename_i x xs hx hxs
        rw [hx, hxs, Option.some.injEq, Option.some.injEq, Option.some.injEq, List.cons.injEq]
      · rename_i hnone
        exact ⟨fun h => (Option.some_ne_none _ h.symm).elim, fun ⟨hc, hcs⟩ => (hnone d ds hc hcs).elim⟩

section
variable {value : Byte → Option Nat} {l : List Byte} {ds : List Nat} (h : digitValues value l = some ds)
include h

theorem length_of_digitValues : ds.length = l.length := by
  simpa using (congrArg List.length (digitValues_eq_some_iff.mp h)).symm

/-- Each digit is the value of the character at its place. -/
theorem value_charAt_of_digitValues {i : Nat} (hi : i < ds.length) : value (charAt l i) = some ds[i] := by
  have hil : i < l.length := length_of_digitValues h ▸ hi
  have hmap : (l.map value)[i]? = (ds.map some)[i]? := by rw [digitValues_eq_some_iff.mp h]
  simpa [charAt, List.getElem?_eq_getElem hil, List.getElem?_eq_getElem hi] using hmap

theorem lt_of_digitValues {size : Nat} (hvalue : ∀ c d, value c = some d → d < size) : ∀ d ∈ ds, d < size := by
  intro d hd
  obtain ⟨i, hi, rfl⟩ := List.mem_iff_getElem.mp hd
  exact hvalue _ _ (value_charAt_of_digitValues h hi)

end

/-- The value of a character is an index of its alphabet. -/
theorem symbolValue_lt {alphabet : List Byte} {c : Byte} {d : Nat} (h : symbolValue alphabet c = some d) :
    d < alphabet.length := by
  obtain ⟨hd, -, -⟩ := List.findIdx?_eq_some_iff_getElem.mp h
  exact hd

theorem hexValue_lt (c : Byte) (d : Nat) (h : hexValue c = some d) : d < 16 := symbolValue_lt h

/-! ### The digits of a number -/

theorem getElem_digitsBE (base len n i : Nat) (h : i < (digitsBE base len n).length) :
    (digitsBE base len n)[i] = n / base ^ (len - 1 - i) % base := by
  induction len generalizing n with
  | zero => simp [digitsBE] at h
  | succ len ih =>
    rw [length_digitsBE] at h
    by_cases hi : i < len
    · have hlen : i < (digitsBE base len (n / base)).length := by rwa [length_digitsBE]
      have hexp : len + 1 - 1 - i = 1 + (len - 1 - i) := by omega
      simp only [digitsBE]
      rw [List.getElem_append_left hlen, ih, hexp, Nat.pow_add, Nat.pow_one, Nat.div_div_eq_div_mul]
    · obtain rfl : i = len := by omega
      simp [digitsBE]

/-- A digit of a number, read from the number. -/
theorem numberBE_div_pow_mod {base : Nat} {ds : List Nat} (hds : ∀ d ∈ ds, d < base) {i : Nat} (hi : i < ds.length) :
    numberBE base ds / base ^ (ds.length - 1 - i) % base = ds[i] := by
  rw [← getElem_digitsBE base ds.length _ i (by rwa [length_digitsBE])]
  simp only [digitsBE_numberBE ds hds]

/-! ### The branches of the canonical form (44_parse.md R275 to R278) -/

/-- The four dashes (R275). -/
def DashesInPlace (l : List Byte) : Prop :=
  charAt l 8 = 0x2D ∧ charAt l 13 = 0x2D ∧ charAt l 18 = 0x2D ∧ charAt l 23 = 0x2D

theorem dashesInPlace_iff (l : List Byte) : dashesInPlace l = true ↔ DashesInPlace l := by
  simp only [dashesInPlace, DashesInPlace, Bool.and_eq_true, beq_iff_eq, and_assoc]

theorem variantCharOk_iff (c : Byte) :
    variantCharOk c = true ↔ c ∈ ([0x38, 0x39, 0x41, 0x61, 0x42, 0x62] : List Byte) := by
  revert c; decide

theorem upper_lower (c : Byte) : upper (lower c) = upper c := by revert c; decide

theorem lower_upper (c : Byte) : lower (upper c) = lower c := by revert c; decide

theorem map_upper_map_lower (l : List Byte) : (l.map lower).map upper = l.map upper := by simp [upper_lower]

theorem map_lower_map_upper (l : List Byte) : (l.map upper).map lower = l.map lower := by simp [lower_upper]

/-- Comparing without case may fold to either case. -/
theorem eqCi_iff_map_lower (x y : List Byte) : eqCi x y = true ↔ x.map lower = y.map lower := by
  rw [eqCi, beq_iff_eq]
  constructor
  · intro h
    rw [← map_lower_map_upper x, h, map_lower_map_upper]
  · intro h
    rw [← map_upper_map_lower x, h, map_upper_map_lower]

theorem parseCanonical_wrongDash {l : List Byte} (h : ¬ DashesInPlace l) :
    parseCanonical l = .error .malformedSeparator :=
  if_pos fun hd => h ((dashesInPlace_iff l).mp hd)

section
variable {l : List Byte} (hdash : DashesInPlace l)
include hdash

theorem parseCanonical_nil (hc : charAt l 14 = 0x30) :
    parseCanonical l = if l = nilCanon then .ok Ident.nil else .error .unsupportedVersion := by
  rw [parseCanonical, if_neg (not_not_intro ((dashesInPlace_iff l).mpr hdash))]
  exact if_pos hc

theorem parseCanonical_max (hc : charAt l 14 = 0x66 ∨ charAt l 14 = 0x46) :
    parseCanonical l = if l.map lower = maxCanon then .ok Ident.max else .error .unsupportedVersion := by
  have hnil : charAt l 14 ≠ ascii '0' := by rcases hc with hc | hc <;> rw [hc] <;> decide
  rw [parseCanonical, if_neg (not_not_intro ((dashesInPlace_iff l).mpr hdash))]
  exact (if_neg hnil).trans ((if_pos hc).trans (if_congr (eqCi_iff_map_lower l maxCanon) rfl rfl))

theorem parseCanonical_otherVersion (hc : charAt l 14 ∉ ([0x30, 0x66, 0x46, 0x34, 0x37] : List Byte)) :
    parseCanonical l = .error .unsupportedVersion := by
  simp only [List.mem_cons, List.not_mem_nil, or_false, not_or] at hc
  obtain ⟨h30, h66, h46, h34, h37⟩ := hc
  rw [parseCanonical, if_neg (not_not_intro ((dashesInPlace_iff l).mpr hdash))]
  exact (if_neg h30).trans ((if_neg (not_or.mpr ⟨h66, h46⟩)).trans (if_neg (not_or.mpr ⟨h34, h37⟩)))

variable (hc : charAt l 14 = 0x34 ∨ charAt l 14 = 0x37)
include hc

omit hdash in
/-- The version characters 4 and 7 lead past the two literals. -/
theorem not_literal_of_numbered :
    charAt l 14 ≠ ascii '0' ∧ ¬ (charAt l 14 = ascii 'f' ∨ charAt l 14 = ascii 'F') := by
  rcases hc with hc | hc <;> rw [hc] <;> decide

theorem parseCanonical_wrongVariant (hvar : variantCharOk (charAt l 19) = false) :
    parseCanonical l = .error .invalidVariant := by
  obtain ⟨hnil, hmax⟩ := not_literal_of_numbered hc
  have hnum : charAt l 14 = ascii '4' ∨ charAt l 14 = ascii '7' := hc
  simp [parseCanonical, (dashesInPlace_iff l).mpr hdash, hnil, hmax, hnum, hvar]

variable (hvar : variantCharOk (charAt l 19) = true)
include hvar

theorem parseCanonical_noDigits (hds : digitValues hexValue (canonicalHex l) = none) :
    parseCanonical l = .error .invalidDigit := by
  obtain ⟨hnil, hmax⟩ := not_literal_of_numbered hc
  have hnum : charAt l 14 = ascii '4' ∨ charAt l 14 = ascii '7' := hc
  simp [parseCanonical, (dashesInPlace_iff l).mpr hdash, hnil, hmax, hnum, hvar, hds]

theorem parseCanonical_digits {ds : List Nat} (hds : digitValues hexValue (canonicalHex l) = some ds) :
    parseCanonical l = .ok (identOfNumber (numberBE 16 ds)) := by
  obtain ⟨hnil, hmax⟩ := not_literal_of_numbered hc
  have hnum : charAt l 14 = ascii '4' ∨ charAt l 14 = ascii '7' := hc
  simp [parseCanonical, (dashesInPlace_iff l).mpr hdash, hnil, hmax, hnum, hvar, hds]

end

/-! ### The value of the canonical digits (44_parse.md R276, R278, R279) -/

section
variable {l : List Byte} (hlen : l.length = 36)
include hlen

theorem length_canonicalHex : (canonicalHex l).length = 32 := by
  simp [canonicalHex, slice, hlen]

/-- Without the dashes the version character is the 13th digit and the variant character the 17th. -/
theorem charAt_canonicalHex :
    charAt (canonicalHex l) 12 = charAt l 14 ∧ charAt (canonicalHex l) 16 = charAt l 19 := by
  simp [charAt, canonicalHex, slice, hlen]

variable {ds : List Nat} (hds : digitValues hexValue (canonicalHex l) = some ds)
include hds

theorem length_canonicalDigits : ds.length = 32 := (length_of_digitValues hds).trans (length_canonicalHex hlen)

theorem numberOfIdent_canonicalDigits : numberOfIdent (identOfNumber (numberBE 16 ds)) = numberBE 16 ds := by
  have hlt := numberBE_lt (base := 16) (by decide) ds (lt_of_digitValues hds hexValue_lt)
  rw [length_canonicalDigits hlen hds] at hlt
  exact numberOfIdent_identOfNumber (hlt.trans_eq (by norm_num))

/-- The character at place i is the digit of 16 ^ (31 - i). -/
theorem hexValue_charAt_canonicalHex {i : Nat} (hi : i < 32) :
    hexValue (charAt (canonicalHex l) i) = some (numberBE 16 ds / 16 ^ (31 - i) % 16) := by
  have hds32 := length_canonicalDigits hlen hds
  have hplace : ds.length - 1 - i = 31 - i := by omega
  rw [value_charAt_of_digitValues hds (by omega), ← hplace, numberBE_div_pow_mod (lt_of_digitValues hds hexValue_lt)]

/-- The digit of the version character is the version. -/
theorem hexValue_version :
    hexValue (charAt l 14) = some (versionOf (identOfNumber (numberBE 16 ds))).toNat := by
  rw [← (charAt_canonicalHex hlen).1, hexValue_charAt_canonicalHex hlen hds (by decide), toNat_versionOf,
    numberOfIdent_canonicalDigits hlen hds]
  norm_num

/-- The digit of the variant character is the variant nibble. -/
theorem hexValue_variant :
    hexValue (charAt l 19) = some (variantNibbleOf (identOfNumber (numberBE 16 ds))).toNat := by
  rw [← (charAt_canonicalHex hlen).2, hexValue_charAt_canonicalHex hlen hds (by decide), toNat_variantNibbleOf,
    numberOfIdent_canonicalDigits hlen hds]
  norm_num

end

/-- The six variant characters are the hex digits 8 to 11. -/
theorem variantCharOk_iff_hexValue (c : Byte) :
    variantCharOk c = true ↔ (hexValue c).any (fun d => d / 4 == 2) = true := by revert c; decide

/-- The variant bits are 2 exactly when the variant nibble is 8 to 11. -/
theorem variantOf_eq_two_iff_nibble (b : Ident) : variantOf b = 2 ↔ (variantNibbleOf b).toNat / 4 = 2 := by
  rw [variantOf, ← BitVec.toNat_inj, toNat_topBits, ← variantNibbleOf]
  rfl

section
variable {l : List Byte} (hlen : l.length = 36) (hc : charAt l 14 = 0x34 ∨ charAt l 14 = 0x37) {ds : List Nat}
  (hds : digitValues hexValue (canonicalHex l) = some ds)
include hlen hc hds

theorem versionOf_canonicalDigits :
    versionOf (identOfNumber (numberBE 16 ds)) = (if charAt l 14 = 0x34 then 4 else 7) := by
  have hver := hexValue_version hlen hds
  apply BitVec.eq_of_toNat_eq
  rcases hc with hc | hc <;> rw [hc] at hver ⊢ <;> exact (Option.some.inj hver).symm

theorem wellFormed_canonicalDigits (hvar : variantCharOk (charAt l 19) = true) :
    (identOfNumber (numberBE 16 ds)).wellFormed = true := by
  refine wellFormed_of_version_variant ?_ ?_
  · rw [versionOf_canonicalDigits hlen hc hds]
    exact ite_eq_or_eq _ _ _
  · rw [variantCharOk_iff_hexValue, hexValue_variant hlen hds] at hvar
    exact (variantOf_eq_two_iff_nibble _).mpr (beq_iff_eq.mp hvar)

end

/-- Settles O38: the branches of the canonical form in order, and the value of its digits. -/
theorem canonicalChecksComeInOrder : Obligations.CanonicalChecksComeInOrder := by
  intro l hlen
  rw [parseStripped_of_length_36 hlen]
  refine ⟨parseCanonical_wrongDash, parseCanonical_nil, parseCanonical_max, parseCanonical_otherVersion,
    fun hdash hc hvar => ?_, fun hdash hc hvar => ?_⟩
  · exact parseCanonical_wrongVariant hdash hc (Bool.eq_false_iff.mpr fun h => hvar ((variantCharOk_iff _).mp h))
  · rw [← variantCharOk_iff] at hvar
    exact ⟨parseCanonical_noDigits hdash hc hvar, fun ds hds => ⟨_, parseCanonical_digits hdash hc hvar hds,
      numberOfIdent_canonicalDigits hlen hds, wellFormed_canonicalDigits hlen hc hds hvar,
      versionOf_canonicalDigits hlen hc hds⟩⟩

end Sys2Proof
end

section
/-! SUPPORT. The compact forms of version 4 and 7: their digits, the rebuilt identifier and the final character
(44_parse.md R281, R284 to R287). -/

namespace Sys2Proof

open Sys2Proof.Machine

/-! ### The final digit (44_parse.md R286, R287) -/

theorem charAt_drop_one (l : List Byte) (i : Nat) : charAt (l.drop 1) i = charAt l (i + 1) := by
  simp [charAt]

/-- The last digit is the value of the last character. -/
theorem value_lastChar {value : Byte → Option Nat} {l : List Byte} {ds : List Nat} (h : digitValues value l = some ds)
    (hpos : 0 < l.length) : value (charAt l (l.length - 1)) = some (ds.getLastD 0) := by
  have hlen := length_of_digitValues h
  have hne : ds ≠ [] := List.ne_nil_of_length_pos (hlen ▸ hpos)
  rw [value_charAt_of_digitValues h (by omega), List.getLastD_eq_getLast?, List.getLast?_eq_some_getLast hne,
    Option.getD_some, List.getLast_eq_getElem]
  simp only [hlen]

/-- The base-32 finals of R286 are the digits whose low nibble is 8 to 11. -/
theorem mem_finals32_iff (c : Byte) :
    c ∈ text "IJKLYZ23ijklyz" ↔ (base32Value c).any (fun d => d % 16 / 4 == 2) = true := by revert c; decide

/-- The base-64 finals of R286 are the digits whose low nibble is 8 to 11. -/
theorem mem_finals64_iff (c : Byte) :
    c ∈ text "IJKLYZabopqr4567" ↔ (base64Value c).any (fun d => d % 16 / 4 == 2) = true := by revert c; decide

/-! ### The rebuilt identifier (44_parse.md R281, R287) -/

/-- The number of digits that hold the 120 content bits. -/
def contentDigits : CompactBase → Nat
  | .b32 => 24
  | .b64 => 20

theorem pow_contentDigits (B : CompactBase) : (2 ^ B.bits) ^ contentDigits B = 256 ^ 15 := by
  cases B <;> norm_num [CompactBase.bits, contentDigits]

theorem compactValue_lt (B : CompactBase) (c : Byte) (d : Nat) (h : B.value c = some d) : d < 2 ^ B.bits := by
  cases B with
  | b32 => exact symbolValue_lt (alphabet := alpha32) h
  | b64 => exact symbolValue_lt (alphabet := alpha64) h

theorem toList_compactPayload (B : CompactBase) (ds : List Nat) :
    (compactPayload B ds).toList =
      bytesOfNumber 15 (numberBE (2 ^ B.bits) ds.dropLast) ++ [BitVec.ofNat 4 (ds.getLastD 0) ++ 0#4] :=
  toList_bytesPadded_of_length (by simp)

theorem getElem_compactPayload_last (B : CompactBase) (ds : List Nat) :
    (compactPayload B ds)[15] = BitVec.ofNat 4 (ds.getLastD 0) ++ 0#4 := by
  rw [← Vector.getElem_toList (by simp)]
  simp only [toList_compactPayload]
  exact List.getElem_concat_length (by simp) _

/-- The identifier that the digits `ds` stand for, with version `v`. -/
def compactIdent (B : CompactBase) (v : BitVec 4) (ds : List Nat) : Ident := unshiftBytes 0 (compactPayload B ds) v

@[simp] theorem versionOf_compactIdent (B : CompactBase) (v : BitVec 4) (ds : List Nat) :
    versionOf (compactIdent B v ds) = v := versionOf_unshiftBytes _ _ _

theorem variantNibbleOf_compactIdent (B : CompactBase) (v : BitVec 4) (ds : List Nat) :
    variantNibbleOf (compactIdent B v ds) = BitVec.ofNat 4 (ds.getLastD 0) := by
  rw [compactIdent, variantNibbleOf_unshiftBytes, getElem_compactPayload_last, BitVec.shiftLeft_zero, hiNibble_append]

/-- Only the low nibble of the last digit counts (R287). -/
theorem toNat_variantNibbleOf_compactIdent (B : CompactBase) (v : BitVec 4) (ds : List Nat) :
    (variantNibbleOf (compactIdent B v ds)).toNat = ds.getLastD 0 % 16 := by
  rw [variantNibbleOf_compactIdent, BitVec.toNat_ofNat]

theorem variantOf_compactIdent_eq_two_iff (B : CompactBase) (v : BitVec 4) (ds : List Nat) :
    variantOf (compactIdent B v ds) = 2 ↔ ds.getLastD 0 % 16 / 4 = 2 := by
  rw [variantOf_eq_two_iff_nibble, toNat_variantNibbleOf_compactIdent]

theorem contentNumber_compactIdent (B : CompactBase) (v : BitVec 4) {ds : List Nat}
    (hlt : numberBE (2 ^ B.bits) ds.dropLast < 256 ^ 15) :
    contentNumber (numberOfIdent (compactIdent B v ds)) = numberBE (2 ^ B.bits) ds.dropLast := by
  have hpop : (compactPayload B ds).pop.toList = bytesOfNumber 15 (numberBE (2 ^ B.bits) ds.dropLast) := by
    rw [Vector.toList_pop, toList_compactPayload, List.dropLast_concat]
  rw [← numberBE_packContent, compactIdent, packContent_unshiftBytes, hpop, byteValues_bytesOfNumber, numberBE_digitsBE,
    Nat.mod_eq_of_lt hlt]

theorem numberBE_contentDigits_lt {B : CompactBase} {l : List Byte} {ds : List Nat} (h : digitValues B.value l = some ds)
    (hlen : l.length = contentDigits B + 1) : numberBE (2 ^ B.bits) ds.dropLast < 256 ^ 15 := by
  have hds := lt_of_digitValues h (compactValue_lt B)
  have hlt := numberBE_lt (Nat.two_pow_pos B.bits) ds.dropLast fun d hd => hds d (List.mem_of_mem_dropLast hd)
  rwa [List.length_dropLast, length_of_digitValues h, hlen, Nat.add_sub_cancel, pow_contentDigits] at hlt

/-! ### The parser on version 4 and 7 (44_parse.md R281, R282, R286) -/

theorem leadVersion_of_mem_numbered :
    ∀ c ∈ text "EeHh", leadVersion c = some (if upper c = 0x45 then 4 else 7) := by decide

section
variable (B : CompactBase) {l : List Byte} {v : BitVec 4} (hlead : leadVersion (charAt l 0) = some v)
  (hv : v = 4 ∨ v = 7)
include hlead hv

theorem parseCompact_noDigits (hds : digitValues B.value (l.drop 1) = none) :
    parseCompact B l = .error .invalidDigit := by
  rcases hv with rfl | rfl <;> simp only [parseCompact, hlead, hds] <;> rfl

theorem parseCompact_digits {ds : List Nat} (hds : digitValues B.value (l.drop 1) = some ds) :
    parseCompact B l =
      if variantOf (compactIdent B v ds) = 2 then .ok (compactIdent B v ds) else .error .invalidVariant := by
  have hdigits : parseCompact B l = parseCompactDigits B false v ds := by
    rcases hv with rfl | rfl <;> simp only [parseCompact, hlead, hds] <;> rfl
  rw [hdigits]
  exact ite_not _ _ _

/-- The last character decides, for a base whose passing final characters are `finals`. -/
theorem parseCompact_by_final {finals : List Byte}
    (hfinals : ∀ c, c ∈ finals ↔ (B.value c).any (fun d => d % 16 / 4 == 2) = true)
    (hlen : l.length = contentDigits B + 2) {ds : List Nat} (hds : digitValues B.value (l.drop 1) = some ds) :
    (charAt l (contentDigits B + 1) ∈ finals →
      ∃ b, parseCompact B l = .ok b ∧ b.wellFormed = true ∧ versionOf b = v ∧
        contentNumber (numberOfIdent b) = numberBE (2 ^ B.bits) ds.dropLast ∧
        (variantNibbleOf b).toNat = ds.getLastD 0 % 16) ∧
    (charAt l (contentDigits B + 1) ∉ finals → parseCompact B l = .error .invalidVariant) := by
  have hdrop : (l.drop 1).length = contentDigits B + 1 := by rw [List.length_drop, hlen]; rfl
  have hlast := value_lastChar hds (by omega)
  rw [charAt_drop_one, hdrop, Nat.add_sub_cancel] at hlast
  have hfinal : charAt l (contentDigits B + 1) ∈ finals ↔ variantOf (compactIdent B v ds) = 2 := by
    rw [hfinals, hlast, variantOf_compactIdent_eq_two_iff]
    exact beq_iff_eq
  rw [hfinal, parseCompact_digits B hlead hv hds]
  refine ⟨fun h => ⟨compactIdent B v ds, if_pos h, ?_, versionOf_compactIdent B v ds, ?_, ?_⟩, fun h => if_neg h⟩
  · exact wellFormed_of_version_variant ((versionOf_compactIdent B v ds).symm ▸ hv) h
  · exact contentNumber_compactIdent B v (numberBE_contentDigits_lt hds hdrop)
  · exact toNat_variantNibbleOf_compactIdent B v ds

end

/-- Settles O39: the two bases of `parseCompact_by_final`. -/
theorem compactFinalCharacterDecidesTheVariant : Obligations.CompactFinalCharacterDecidesTheVariant := by
  refine ⟨fun l hlen hc => ?_, fun l hlen hc => ?_⟩
  · rw [parseStripped_of_length_26 hlen]
    have hlead := leadVersion_of_mem_numbered _ hc
    exact ⟨parseCompact_noDigits .b32 hlead (ite_eq_or_eq _ _ _), fun ds hds =>
      parseCompact_by_final .b32 hlead (ite_eq_or_eq _ _ _) mem_finals32_iff hlen hds⟩
  · rw [parseStripped_of_length_22 hlen]
    have hlead := leadVersion_of_mem_numbered _ hc
    exact ⟨parseCompact_noDigits .b64 hlead (ite_eq_or_eq _ _ _), fun ds hds =>
      parseCompact_by_final .b64 hlead (ite_eq_or_eq _ _ _) mem_finals64_iff hlen hds⟩

end Sys2Proof
end

section
/-! SUPPORT. The case of letters: which comparisons and values fold it (44_parse.md R279, R282, R284, R289, R300). -/

namespace Sys2Proof

open Sys2Proof.Machine

/-! ### Folding to upper case -/

theorem upper_upper (c : Byte) : upper (upper c) = upper c := by revert c; decide

theorem charAt_map_upper (l : List Byte) (i : Nat) : charAt (l.map upper) i = upper (charAt l i) := by
  simp only [charAt, List.getD_eq_getElem?_getD, List.getElem?_map]
  cases l[i]? <;> rfl

theorem eqCi_map_upper (l x : List Byte) : eqCi (l.map upper) x = eqCi l x := by
  rw [eqCi, List.map_map, Function.comp_def, funext upper_upper, eqCi]

/-- Digit values that do not see the case of a letter. -/
theorem digitValues_map_upper {value : Byte → Option Nat} (h : ∀ c, value (upper c) = value c) (l : List Byte) :
    digitValues value (l.map upper) = digitValues value l := by
  induction l with
  | nil => rfl
  | cons c cs ih => simp only [List.map_cons, digitValues, h, ih]

theorem hexValue_upper (c : Byte) : hexValue (upper c) = hexValue c := congrArg (symbolValue hexDigits) (lower_upper c)

theorem base32Value_upper (c : Byte) : base32Value (upper c) = base32Value c :=
  congrArg (symbolValue alpha32) (upper_upper c)

theorem leadVersion_upper (c : Byte) : leadVersion (upper c) = leadVersion c := by simp only [leadVersion, upper_upper]

/-! ### The canonical form (44_parse.md R275 to R279) -/

/-- Below the letters nothing is folded, and nothing else folds to there. -/
theorem upper_eq_self_of_lt (c : Byte) (h : c.toNat < 0x41 ∨ (upper c).toNat < 0x41) : upper c = c := by
  revert c; decide

theorem upper_eq_iff_of_lt {x : Byte} (hx : x.toNat < 0x41) (c : Byte) : upper c = x ↔ c = x := by
  constructor
  · rintro rfl
    exact (upper_eq_self_of_lt c (.inr hx)).symm
  · rintro rfl
    exact upper_eq_self_of_lt c (.inl hx)

theorem map_upper_eq_iff {t : List Byte} (ht : ∀ x ∈ t, x.toNat < 0x41) (l : List Byte) : l.map upper = t ↔ l = t := by
  constructor
  · rintro rfl
    have hfix : l.map upper = l.map id :=
      List.map_congr_left fun c hc => upper_eq_self_of_lt c (.inr (ht _ (List.mem_map_of_mem hc)))
    rw [hfix, List.map_id]
  · rintro rfl
    exact (List.map_congr_left fun c hc => upper_eq_self_of_lt c (.inl (ht c hc))).trans (List.map_id l)

theorem dashesInPlace_map_upper (l : List Byte) : dashesInPlace (l.map upper) = dashesInPlace l := by
  rw [Bool.eq_iff_iff, dashesInPlace_iff, dashesInPlace_iff]
  simp only [DashesInPlace, charAt_map_upper, upper_eq_iff_of_lt (x := 0x2D) (by decide)]

theorem canonicalHex_map_upper (l : List Byte) : canonicalHex (l.map upper) = (canonicalHex l).map upper := by
  simp only [canonicalHex, slice, List.map_append, List.map_take, List.map_drop]

theorem variantCharOk_upper (c : Byte) : variantCharOk (upper c) = variantCharOk c := by revert c; decide

theorem upper_eq_f_or_F_iff (c : Byte) :
    upper c = ascii 'f' ∨ upper c = ascii 'F' ↔ c = ascii 'f' ∨ c = ascii 'F' := by revert c; decide

theorem parseCanonical_map_upper (l : List Byte) : parseCanonical (l.map upper) = parseCanonical l := by
  simp only [parseCanonical, dashesInPlace_map_upper, charAt_map_upper, upper_eq_f_or_F_iff,
    upper_eq_iff_of_lt (x := ascii '0') (by decide), upper_eq_iff_of_lt (x := ascii '4') (by decide),
    upper_eq_iff_of_lt (x := ascii '7') (by decide), map_upper_eq_iff (t := nilCanon) (by decide), eqCi_map_upper,
    variantCharOk_upper, canonicalHex_map_upper, digitValues_map_upper hexValue_upper]

/-! ### The compact forms (44_parse.md R282 to R285) -/

theorem parseCompact32_map_upper (l : List Byte) : parseCompact .b32 (l.map upper) = parseCompact .b32 l := by
  have hnil : matchesNilCompact .b32 (l.map upper) = matchesNilCompact .b32 l := eqCi_map_upper l nilC32
  have hmax : matchesMaxCompact .b32 (l.map upper) = matchesMaxCompact .b32 l := eqCi_map_upper l maxC32
  have hdigits : digitValues CompactBase.b32.value ((l.map upper).drop 1) =
      digitValues CompactBase.b32.value (l.drop 1) := by
    rw [← List.map_drop]
    exact digitValues_map_upper base32Value_upper _
  rw [parseCompact, parseCompact, charAt_map_upper, leadVersion_upper, hnil, hmax, hdigits]

theorem parseCompact64_lead {c d : Byte} (h : upper c = upper d) (l : List Byte) :
    parseCompact .b64 (c :: l) = parseCompact .b64 (d :: l) := by
  have hlead : leadVersion (charAt (c :: l) 0) = leadVersion (charAt (d :: l) 0) := by
    rw [← leadVersion_upper, ← leadVersion_upper (charAt (d :: l) 0)]
    exact congrArg leadVersion h
  rw [parseCompact, parseCompact, hlead]
  rfl

theorem parseStripped_map_upper {l : List Byte} (h : l.length = 36 ∨ l.length = 26) :
    parseStripped (l.map upper) = parseStripped l := by
  rcases h with h | h
  · rw [parseStripped_of_length_36 h, parseStripped_of_length_36 ((List.length_map upper).trans h),
      parseCanonical_map_upper]
  · rw [parseStripped_of_length_26 h, parseStripped_of_length_26 ((List.length_map upper).trans h),
      parseCompact32_map_upper]

/-- Settles O41: the parsers see the folded string only, and base 64 the folded first character. -/
theorem caseOfLettersInCanonicalAndCompactForms : Obligations.CaseOfLettersInCanonicalAndCompactForms := by
  refine ⟨fun l m hlen h => ?_, fun c d l hlen h => ?_⟩
  · have hlm : l.length = m.length := by simpa using congrArg List.length h
    rw [← parseStripped_map_upper hlen, h, parseStripped_map_upper (hlm ▸ hlen)]
  · have h22 : ∀ x : Byte, (x :: l).length = 22 := fun x => congrArg (· + 1) hlen
    rw [parseStripped_of_length_22 (h22 c), parseStripped_of_length_22 (h22 d), parseCompact64_lead h]

end Sys2Proof
end

section
/-! SUPPORT. PARSE_SHORT: the trim, the base-57 digits, the range and the check (44_parse.md R292 to R297). -/

namespace Sys2Proof

open Sys2Proof.Machine

/-! ### Trimming (44_parse.md R293) -/

theorem isSpace_iff (c : Byte) : isSpace c = true ↔ c ∈ ([0x20, 0x09, 0x0A, 0x0B, 0x0C, 0x0D] : List Byte) := by
  revert c; decide

section
variable {w : List Byte} (hw : ∀ c ∈ w, isSpace c = true)
include hw

theorem trim_append_left (l : List Byte) : trim (w ++ l) = trim l := by
  rw [trim, List.dropWhile_append_of_pos hw, ← trim]

theorem trim_append_right (l : List Byte) : trim (l ++ w) = trim l := by
  have hrev : ∀ c ∈ w.reverse, isSpace c = true := fun c hc => hw c (List.mem_reverse.mp hc)
  have hall : w.dropWhile isSpace = [] := List.dropWhile_eq_nil_iff.mpr hw
  unfold trim
  rw [List.dropWhile_append]
  split
  · rename_i hempty
    rw [hall, List.isEmpty_iff.mp hempty]
  · rw [List.reverse_append, List.dropWhile_append_of_pos hrev]

end

theorem trim_eq_self {l : List Byte} (h : ∀ c ∈ l, isSpace c = false) : trim l = l := by
  have hself : ∀ m : List Byte, (∀ c ∈ m, isSpace c = false) → m.dropWhile isSpace = m := by
    intro m hm
    cases m with
    | nil => rfl
    | cons c cs => rw [List.dropWhile_cons_of_neg (Bool.eq_false_iff.mp (hm c List.mem_cons_self))]
  rw [trim, hself l h, hself _ fun c hc => h c (List.mem_reverse.mp hc), List.reverse_reverse]

/-! ### The short form of an identifier (45_format.md R324) -/

theorem digitValues_shortText (b : Ident) :
    digitValues base57Value (shortText b) = some (digitsBE 57 22 (numberOfIdent b)) :=
  digitValues_map_symbol base57Value_symbol _ (digitsBE_lt (by decide) 22 _)

theorem numberBE_shortDigits (b : Ident) : numberBE 57 (digitsBE 57 22 (numberOfIdent b)) = numberOfIdent b := by
  rw [numberBE_digitsBE, Nat.mod_eq_of_lt ((numberOfIdent_lt b).trans (by norm_num))]

/-! ### The decoder (44_parse.md R294 to R297) -/

/-- The two literals are the short forms of nil and max, and parse to them (R295). -/
theorem parseShortTrimmed_literal {t : List Byte} (h : t = nilS57 ∨ t = maxS57) :
    ∃ b : Ident, b.wellFormed = true ∧ t = shortText b ∧ parseShortTrimmed t = .ok b := by
  rcases h with rfl | rfl
  · exact ⟨Ident.nil, by decide, by decide, rfl⟩
  · exact ⟨Ident.max, by decide, by decide, rfl⟩

section
variable {t : List Byte} (hlen : t.length = 22)
include hlen

theorem parseShortTrimmed_noDigits (hds : digitValues base57Value t = none) :
    parseShortTrimmed t = .error .invalidDigit := by
  by_cases hlit : t = nilS57 ∨ t = maxS57
  · obtain ⟨b, _, ht, _⟩ := parseShortTrimmed_literal hlit
    rw [ht, digitValues_shortText] at hds
    cases hds
  · obtain ⟨hnil, hmax⟩ := not_or.mp hlit
    simp only [parseShortTrimmed, hlen, hnil, hmax, hds, ne_eq, not_true_eq_false, if_false]

variable {ds : List Nat} (hds : digitValues base57Value t = some ds)
include hds

theorem parseShortTrimmed_outOfRange (h : 2 ^ 128 ≤ numberBE 57 ds) : parseShortTrimmed t = .error .invalidDigit := by
  by_cases hlit : t = nilS57 ∨ t = maxS57
  · obtain ⟨b, _, ht, _⟩ := parseShortTrimmed_literal hlit
    rw [ht, digitValues_shortText, Option.some.injEq] at hds
    rw [← hds, numberBE_shortDigits] at h
    exact absurd (numberOfIdent_lt b) (Nat.not_lt.mpr h)
  · obtain ⟨hnil, hmax⟩ := not_or.mp hlit
    simp only [parseShortTrimmed, hlen, hnil, hmax, hds, h, ne_eq, not_true_eq_false, if_false, if_true]

/-- Within the range the shortcut for the literals changes nothing (R295). -/
theorem parseShortTrimmed_inRange (h : numberBE 57 ds < 2 ^ 128) :
    parseShortTrimmed t = validated (identOfNumber (numberBE 57 ds)) := by
  by_cases hlit : t = nilS57 ∨ t = maxS57
  · obtain ⟨b, hwf, ht, hparse⟩ := parseShortTrimmed_literal hlit
    rw [ht, digitValues_shortText, Option.some.injEq] at hds
    rw [hparse, ← hds, numberBE_shortDigits, identOfNumber_numberOfIdent, validated_of_wellFormed hwf]
  · obtain ⟨hnil, hmax⟩ := not_or.mp hlit
    have hrange : ¬ 2 ^ 128 ≤ numberBE 57 ds := Nat.not_le.mpr h
    simp only [parseShortTrimmed, hlen, hnil, hmax, hds, hrange, ne_eq, not_true_eq_false, if_false]

end

/-- What a trimmed string can parse to: a failure by its length or its digits, or a checked value. -/
theorem parseShortTrimmed_cases (t : List Byte) :
    parseShortTrimmed t = .error .malformedLength ∨ parseShortTrimmed t = .error .invalidDigit ∨
      ∃ b, parseShortTrimmed t = validated b := by
  by_cases hlen : t.length = 22
  · cases hds : digitValues base57Value t with
    | none => exact .inr (.inl (parseShortTrimmed_noDigits hlen hds))
    | some ds =>
      by_cases hrange : numberBE 57 ds < 2 ^ 128
      · exact .inr (.inr ⟨_, parseShortTrimmed_inRange hlen hds hrange⟩)
      · exact .inr (.inl (parseShortTrimmed_outOfRange hlen hds (Nat.not_lt.mp hrange)))
  · exact .inl (if_pos hlen)

/-! ### The command (44_parse.md R292) -/

theorem exec_parseShort_tooLong {s : State} (h : 64 < s.port.ilen.toNat) :
    exec .parseShort s = .next (endedWith s s.g { s.port with id := Vector.replicate 16 0 } 1) :=
  congrArg (fun r => Host.Outcome.next (s.finishParse r)) (parseInput_of_tooLong h parseShortText)

theorem exec_parseShort_fits {s : State} (h : s.port.ilen.toNat ≤ 64) :
    exec .parseShort s = .next (s.finishParse (parseShortText (s.port.ibuf.toList.take s.port.ilen.toNat))) :=
  congrArg (fun r => Host.Outcome.next (s.finishParse r)) (parseInput_of_fits h parseShortText)

/-- The four failures of the short decoder are among the five of PARSE. -/
theorem shortCode_mem {e : ParseError} {code : BitVec 4}
    (h : (e, code) ∈ [(.malformedLength, 1), (.unsupportedVersion, 3), (.invalidVariant, 4),
      (ParseError.invalidDigit, 5)]) : e.code = code :=
  code_of_mem (List.cons_subset_cons _ (List.subset_cons_self _ _) h)

/-- Settles O42: the two ends of the command, the decoder case by case, and the trim. -/
theorem parseShortDecodesAndChecksTheRange : Obligations.ParseShortDecodesAndChecksTheRange := by
  refine ⟨fun s => exec_parseShort_tooLong, fun s hlen => ⟨fun b hr => ?_, fun e code hr hcode => ?_⟩, fun l => ?_,
    fun l hlen => if_pos hlen, fun l hlen => ⟨parseShortTrimmed_noDigits hlen, fun ds hds =>
      ⟨parseShortTrimmed_outOfRange hlen hds, fun hrange => ?_⟩⟩, fun l w1 w2 hw => ?_⟩
  · rw [exec_parseShort_fits hlen, hr, finishParse_ok]
  · rw [exec_parseShort_fits hlen, hr, finishParse_error, shortCode_mem hcode]
  · rw [parseShortText]
    rcases parseShortTrimmed_cases (trim l) with h | h | ⟨b, h⟩ <;> rw [h]
    · simp
    · simp
    · exact validated_ne_malformedSeparator b
  · have hparse := parseShortTrimmed_inRange hlen hds hrange
    have hnumber := numberOfIdent_identOfNumber hrange
    generalize identOfNumber (numberBE 57 ds) = b at hparse hnumber
    exact ⟨b, hnumber, hparse⟩
  · have hspace : ∀ c ∈ w1 ++ w2, isSpace c = true := fun c hc => (isSpace_iff c).mpr (hw c hc)
    rw [parseShortText, trim_append_right fun c hc => hspace c (List.mem_append_right _ hc),
      trim_append_left fun c hc => hspace c (List.mem_append_left _ hc), ← parseShortText]

end Sys2Proof
end

section
/-! SUPPORT. The results of the parse commands: what PARSE and PARSE_SHORT give is well-formed, and no command sees more than
IBUF and ILEN (44_parse.md R270, R298). -/

namespace Sys2Proof

open Sys2Proof.Machine

/-! ### Parsed values are well-formed (44_parse.md R298) -/

theorem wellFormed_of_ite_ok {c : Prop} [Decidable c] {x b : Ident} {e : ParseError} (hx : c → x.wellFormed = true)
    (h : (if c then .ok x else .error e) = (.ok b : Except ParseError Ident)) : b.wellFormed = true := by
  split at h
  · rename_i hc
    obtain rfl := Except.ok.inj h
    exact hx hc
  · cases h

/-- The version characters that lead past the version check, by branch. -/
theorem versionChar_cases (c : Byte) :
    c = 0x30 ∨ (c = 0x66 ∨ c = 0x46) ∨ (c = 0x34 ∨ c = 0x37) ∨ c ∉ ([0x30, 0x66, 0x46, 0x34, 0x37] : List Byte) := by
  simp only [List.mem_cons, List.not_mem_nil, or_false]
  tauto

theorem wellFormed_of_parseCanonical {l : List Byte} {b : Ident} (hlen : l.length = 36)
    (h : parseCanonical l = .ok b) : b.wellFormed = true := by
  by_cases hdash : DashesInPlace l
  · rcases versionChar_cases (charAt l 14) with hc | hc | hc | hc
    · rw [parseCanonical_nil hdash hc] at h
      exact wellFormed_of_ite_ok (fun _ => by decide) h
    · rw [parseCanonical_max hdash hc] at h
      exact wellFormed_of_ite_ok (fun _ => by decide) h
    · cases hvar : variantCharOk (charAt l 19) with
      | false => cases (parseCanonical_wrongVariant hdash hc hvar).symm.trans h
      | true =>
        cases hds : digitValues hexValue (canonicalHex l) with
        | none => cases (parseCanonical_noDigits hdash hc hvar hds).symm.trans h
        | some ds =>
          rw [parseCanonical_digits hdash hc hvar hds, Except.ok.injEq] at h
          exact h ▸ wellFormed_canonicalDigits hlen hc hds hvar
    · cases (parseCanonical_otherVersion hdash hc).symm.trans h
  · cases (parseCanonical_wrongDash hdash).symm.trans h

theorem wellFormed_of_parseCompact (B : CompactBase) {l : List Byte} {b : Ident} (h : parseCompact B l = .ok b) :
    b.wellFormed = true := by
  have hcases : ∀ c : Byte, c ∈ text "Aa" ∨ c ∈ text "Pp" ∨ c ∈ text "EeHh" ∨ c ∉ text "AaEeHhPp" := by decide
  rcases hcases (charAt l 0) with hc | hc | hc | hc
  · rw [parseCompact_nilLead B hc] at h
    exact wellFormed_of_ite_ok (fun _ => by decide) h
  · rw [parseCompact_maxLead B hc] at h
    exact wellFormed_of_ite_ok (fun _ => by decide) h
  · have hlead := leadVersion_of_mem_numbered _ hc
    cases hds : digitValues B.value (l.drop 1) with
    | none => cases (parseCompact_noDigits B hlead (ite_eq_or_eq _ _ _) hds).symm.trans h
    | some ds =>
      rw [parseCompact_digits B hlead (ite_eq_or_eq _ _ _) hds] at h
      refine wellFormed_of_ite_ok (fun hvar => wellFormed_of_version_variant ?_ hvar) h
      rw [versionOf_compactIdent]
      exact ite_eq_or_eq _ _ _
  · cases (parseCompact_unknownLead B hc).symm.trans h

theorem wellFormed_of_parseText {l : List Byte} {b : Ident} (h : parseText l = .ok b) : b.wellFormed = true := by
  unfold parseText parseStripped at h
  split_ifs at h with h16 h36 h26 h22
  · exact wellFormed_of_validated h
  · exact wellFormed_of_parseCanonical h36 h
  · exact wellFormed_of_parseCompact .b32 h
  · exact wellFormed_of_parseCompact .b64 h

theorem wellFormed_of_parseShortText {l : List Byte} {b : Ident} (h : parseShortText l = .ok b) :
    b.wellFormed = true := by
  rcases parseShortTrimmed_cases (trim l) with hp | hp | ⟨c, hp⟩
  · cases hp.symm.trans h
  · cases hp.symm.trans h
  · exact wellFormed_of_validated (hp.symm.trans h)

theorem wellFormed_of_parseInput {parser : List Byte → Except ParseError Ident}
    (hparser : ∀ l b, parser l = .ok b → b.wellFormed = true) {p : Port} {b : Ident} (h : p.parseInput parser = .ok b) :
    b.wellFormed = true := by
  unfold Port.parseInput at h
  split at h
  · cases h
  · exact hparser _ _ h

/-! ### The result is a function of IBUF and ILEN (44_parse.md R270) -/

/-- Each parse command ends with a result that only IBUF and ILEN decide. -/
theorem exec_parseCommand {i : Instr} (hi : i ∈ [Instr.parse, .parseShort, .fromBytes]) :
    ∃ f : Buffer → BitVec 8 → Except ParseError Ident,
      (∀ s : State, exec i s = .next (s.finishParse (f s.port.ibuf s.port.ilen))) ∧
      (i ≠ .fromBytes → ∀ x n b, f x n = .ok b → b.wellFormed = true) := by
  simp only [List.mem_cons, List.not_mem_nil, or_false] at hi
  rcases hi with rfl | rfl | rfl
  · exact ⟨fun x n => Port.parseInput { Port.reset with ibuf := x, ilen := n } parseText, fun s => rfl,
      fun _ x n b => wellFormed_of_parseInput fun l b => wellFormed_of_parseText⟩
  · exact ⟨fun x n => Port.parseInput { Port.reset with ibuf := x, ilen := n } parseShortText, fun s => rfl,
      fun _ x n b => wellFormed_of_parseInput fun l b => wellFormed_of_parseShortText⟩
  · exact ⟨fun x n => if n = 16 then .ok (bytesPadded 16 (x.toList.take 16)) else .error .malformedLength,
      fun s => rfl, fun h => absurd rfl h⟩

section
variable {s : State} (h : s.env.cur < s.nPorts)
include h

theorem port_finishParse_ok (b : Ident) :
    (s.finishParse (.ok b)).port.id = b ∧ (s.finishParse (.ok b)).port.err = 0 := by
  have hport : (s.finishParse (.ok b)).port = Port.complete { s.port with id := b } 0 := State.port_setPort h _
  rw [hport]
  exact ⟨rfl, rfl⟩

theorem port_finishParse_error (e : ParseError) :
    (s.finishParse (.error e)).port.id = Vector.replicate 16 0 ∧ (s.finishParse (.error e)).port.err = e.code := by
  have hport : (s.finishParse (.error e)).port = s.port.fail e := State.port_setPort h _
  rw [hport]
  exact ⟨rfl, rfl⟩

end

theorem finishParse_congr {s1 s2 : State} (h1 : s1.env.cur < s1.nPorts) (h2 : s2.env.cur < s2.nPorts)
    (r : Except ParseError Ident) :
    (s1.finishParse r).port.id = (s2.finishParse r).port.id ∧
      (s1.finishParse r).port.err = (s2.finishParse r).port.err := by
  cases r with
  | ok b =>
    obtain ⟨hid1, herr1⟩ := port_finishParse_ok h1 b
    obtain ⟨hid2, herr2⟩ := port_finishParse_ok h2 b
    exact ⟨hid1.trans hid2.symm, herr1.trans herr2.symm⟩
  | error e =>
    obtain ⟨hid1, herr1⟩ := port_finishParse_error h1 e
    obtain ⟨hid2, herr2⟩ := port_finishParse_error h2 e
    exact ⟨hid1.trans hid2.symm, herr1.trans herr2.symm⟩

/-- A machine whose current port holds sixteen bytes 0x01 as its input: version 0, but not nil. -/
def illFormedInput : State :=
  { State.reset with ports := [{ Port.reset with ibuf := Vector.replicate 64 1, ilen := 16 }] }

/-- Settles O35: a parse command ends with its result's value or code; `illFormedInput` is FROM_BYTES's exception. -/
theorem parseCommandsEndWellFormedOrNil : Obligations.ParseCommandsEndWellFormedOrNil := by
  refine ⟨fun s i hi => ?_, ⟨illFormedInput, illFormedInput.port.input16, by decide, exec_fromBytes_sixteen rfl⟩,
    fun s1 s2 t1 t2 hs1 hs2 hibuf hilen i hi ht1 ht2 => ?_⟩
  · obtain ⟨f, hexec, hwf⟩ := exec_parseCommand hi
    cases hr : f s.port.ibuf s.port.ilen with
    | ok b => exact .inl ⟨b, by rw [hexec, hr, finishParse_ok], fun hne => hwf hne _ _ _ hr⟩
    | error e => exact .inr ⟨e, code_mem e, by rw [hexec, hr, finishParse_error]⟩
  · obtain ⟨f, hexec, -⟩ := exec_parseCommand hi
    rw [hexec, Host.Outcome.next.injEq] at ht1 ht2
    rw [← ht1, ← ht2, hibuf, hilen]
    exact finishParse_congr hs1 hs2 _

end Sys2Proof
end

section
/-! SUPPORT. Formatting and parsing back: each output form of a well-formed identifier, copied to the input, parses to it
(44_parse.md R299, 45_format.md R329). -/

namespace Sys2Proof

open Sys2Proof.Machine

/-! ### A format command, the host's copy and a parse command (44_parse.md R299) -/

/-- The command `i` ends with what `parser` makes of an input string that fits IBUF (R271, R292). -/
def RunsParser (i : Instr) (parser : List Byte → Except ParseError Ident) : Prop :=
  ∀ t : State, t.port.ilen.toNat ≤ 64 →
    exec i t = .next (t.finishParse (parser (t.port.ibuf.toList.take t.port.ilen.toNat)))

theorem runsParser_parse : RunsParser .parse parseText := fun _ => exec_parse_fits

theorem runsParser_parseShort : RunsParser .parseShort parseShortText := fun _ => exec_parseShort_fits

section
variable {s : State} (h : s.env.cur < s.nPorts)
include h

theorem port_copyOutputToInput :
    (copyOutputToInput s).port = { s.port with ibuf := s.port.obuf, ilen := s.port.olen } := State.port_setPort h _

theorem port_formatStep (f : List Byte) : (s.formatStep f).port = (s.port.setOutput f).complete 0 :=
  State.port_setPort h _

theorem formatStep_cur_lt (f : List Byte) : (s.formatStep f).env.cur < (s.formatStep f).nPorts :=
  (State.setPort_nPorts s _).symm ▸ h

theorem copyOutputToInput_cur_lt : (copyOutputToInput s).env.cur < (copyOutputToInput s).nPorts :=
  (State.setPort_nPorts s _).symm ▸ h

/-- After the copy the input string is the form that was put out. -/
theorem input_copyOutputToInput {f : List Byte} (hf : f.length ≤ 64) :
    (copyOutputToInput (s.formatStep f)).port.ilen.toNat = f.length ∧
      (copyOutputToInput (s.formatStep f)).port.ibuf.toList.take f.length = f := by
  have hlen : (BitVec.ofNat 8 f.length).toNat = f.length := by
    rw [BitVec.toNat_ofNat]
    exact Nat.mod_eq_of_lt (by omega)
  have htake : (bytesPadded 64 f).toList.take f.length = f := by
    rw [take_toList_bytesPadded hf le_rfl, List.take_length]
  rw [port_copyOutputToInput (formatStep_cur_lt h f), port_formatStep h f]
  exact ⟨hlen, htake⟩

/-- The parse command `i` on the copied form ends with what its parser makes of the form. -/
theorem exec_copyOutputToInput {i : Instr} {parser : List Byte → Except ParseError Ident}
    (hi : RunsParser i parser) {f : List Byte} (hf : f.length ≤ 64) :
    exec i (copyOutputToInput (s.formatStep f)) =
      .next ((copyOutputToInput (s.formatStep f)).finishParse (parser f)) := by
  obtain ⟨hilen, hinput⟩ := input_copyOutputToInput h hf
  rw [hi _ (hilen.le.trans hf), hilen, hinput]

theorem copyOutputToInput_parses {i : Instr} {parser : List Byte → Except ParseError Ident}
    (hi : RunsParser i parser) {f : List Byte} (hf : f.length ≤ 64) {b : Ident} (hparse : parser f = .ok b) :
    ∃ u, exec i (copyOutputToInput (s.formatStep f)) = .next u ∧ u.port.id = b ∧ u.port.err = 0 :=
  ⟨_, (exec_copyOutputToInput h hi hf).trans (by rw [hparse]),
    port_finishParse_ok (copyOutputToInput_cur_lt (formatStep_cur_lt h f)) b⟩

end

/-! ### The canonical form (44_parse.md R275 to R279, 45_format.md R321, R326) -/

section
variable (b : Ident)

/-- The 32 digits of the canonical form are those of U. -/
theorem digitValues_canonicalText :
    digitValues hexValue (canonicalHex (canonicalText b)) = some (digitsBE 16 32 (numberOfIdent b)) := by
  rw [(canonicalText_dashes_and_hex b).2, hexOfIdent_eq]
  exact digitValues_map_symbol hexValue_symbol _ (digitsBE_lt (by decide) 32 _)

theorem dashesInPlace_canonicalText : DashesInPlace (canonicalText b) := by
  have hdash := (canonicalText_dashes_and_hex b).1
  exact ⟨hdash 8 (by decide), hdash 13 (by decide), hdash 18 (by decide), hdash 23 (by decide)⟩

theorem identOfNumber_canonicalDigits : identOfNumber (numberBE 16 (digitsBE 16 32 (numberOfIdent b))) = b := by
  have hlt : numberOfIdent b < 16 ^ 32 := (numberOfIdent_lt b).trans_eq (by norm_num)
  rw [numberBE_digitsBE, Nat.mod_eq_of_lt hlt, identOfNumber_numberOfIdent]

theorem charAt_hexOfIdent {i : Nat} (hi : i < 32) :
    charAt (hexOfIdent b) i = symbol hexDigits (numberOfIdent b / 16 ^ (31 - i) % 16) := by
  have hlen : i < (digitsBE 16 32 (numberOfIdent b)).length := by rwa [length_digitsBE]
  have hget := getElem_digitsBE 16 32 (numberOfIdent b) i hlen
  rw [hexOfIdent_eq]
  simp [charAt, List.getElem?_eq_getElem hlen, hget]

/-- The version character is the digit of the version. -/
theorem charAt_canonicalText_version : charAt (canonicalText b) 14 = symbol hexDigits (versionOf b).toNat := by
  rw [← (charAt_canonicalHex (length_canonicalText b)).1, (canonicalText_dashes_and_hex b).2,
    charAt_hexOfIdent b (by decide), toNat_versionOf]
  norm_num

end

/-- Version 4 or 7 with the variant bits `10`, the case of R19 beside nil and max. -/
theorem parseCanonical_canonicalText_numbered {b : Ident} (hver : versionOf b = 4 ∨ versionOf b = 7)
    (hvar : variantOf b = 2) : parseCanonical (canonicalText b) = .ok b := by
  have hds := digitValues_canonicalText b
  have hident := identOfNumber_canonicalDigits b
  have hc : charAt (canonicalText b) 14 = 0x34 ∨ charAt (canonicalText b) 14 = 0x37 := by
    rw [charAt_canonicalText_version]
    rcases hver with hver | hver <;> rw [hver] <;> decide
  have hnibble := hexValue_variant (length_canonicalText b) hds
  rw [hident] at hnibble
  have hchar : variantCharOk (charAt (canonicalText b) 19) = true := by
    rw [variantCharOk_iff_hexValue, hnibble]
    exact beq_iff_eq.mpr ((variantOf_eq_two_iff_nibble b).mp hvar)
  rw [parseCanonical_digits (dashesInPlace_canonicalText b) hc hchar hds, hident]

theorem parseCanonical_canonicalText {b : Ident} (h : b.wellFormed = true) : parseCanonical (canonicalText b) = .ok b := by
  obtain rfl | rfl | ⟨hver, hvar⟩ := (wellFormed_iff b).mp h
  · decide
  · decide
  · exact parseCanonical_canonicalText_numbered hver hvar

/-- The canonical form begins with a digit, not with a quote. -/
theorem head_canonicalText_ne_quote (b : Ident) : (canonicalText b).head? ≠ some 0x22 := by
  have hdigits : ∀ n < 16, symbol hexDigits n ≠ 0x22 := by decide
  have hfirst : charAt (canonicalText b) 0 = charAt (hexOfIdent b) 0 := by
    rw [← (canonicalText_dashes_and_hex b).2]
    simp [charAt, canonicalHex, slice]
  intro hquote
  rw [charAt_zero_eq_head, hquote, charAt_hexOfIdent b (by decide)] at hfirst
  exact hdigits _ (Nat.mod_lt _ (by decide)) hfirst.symm

theorem parseText_canonicalText {b : Ident} (h : b.wellFormed = true) : parseText (canonicalText b) = .ok b := by
  rw [parseText_unquoted (.inl (head_canonicalText_ne_quote b)), parseStripped_of_length_36 (length_canonicalText b),
    parseCanonical_canonicalText h]

theorem parseText_jsonText {b : Ident} (h : b.wellFormed = true) : parseText (jsonText b) = .ok b :=
  (parseText_quoted (canonicalText b)).trans
    ((parseStripped_of_length_36 (length_canonicalText b)).trans (parseCanonical_canonicalText h))

/-- Settles O49: PARSE undoes the canonical form, with or without quotes. -/
theorem canonicalAndJsonFormsRoundTrip : Obligations.CanonicalAndJsonFormsRoundTrip := by
  intro s h hwf
  have hcanon := copyOutputToInput_parses h runsParser_parse (by simp) (parseText_canonicalText hwf)
  have hjson := copyOutputToInput_parses h runsParser_parse (by simp) (parseText_jsonText hwf)
  obtain ⟨u, hu⟩ := hcanon
  obtain ⟨w, hw⟩ := hjson
  exact ⟨⟨_, u, rfl, hu⟩, ⟨_, w, rfl, hw⟩⟩

end Sys2Proof
end

section
/-! SUPPORT. The round trips of the compact, the short and the raw forms (44_parse.md R273, R274, R281 to R287, R292 to R297,
R299). -/

namespace Sys2Proof

open Sys2Proof.Machine

/-! ### The compact forms (43_repack.md R249, 45_format.md R322, R323) -/

/-- The digits of an identifier in a compact form: the content, then the variant nibble. -/
def compactDigits (B : CompactBase) (b : Ident) : List Nat :=
  digitsBE (2 ^ B.bits) (contentDigits B) (contentNumber (numberOfIdent b)) ++ [numberOfIdent b / 2 ^ 60 % 16]

theorem contentNumber_lt (b : Ident) : contentNumber (numberOfIdent b) < 256 ^ 15 := by
  have hlt := numberBE_lt (base := 256) (by decide) (byteValues (packContent b).toList) (byteValues_lt _)
  have hlen : (byteValues (packContent b).toList).length = 15 := by simp [byteValues]
  rwa [numberBE_packContent, hlen] at hlt

/-- The parser takes from these digits what the repack makes of the identifier. -/
theorem compactPayload_compactDigits (B : CompactBase) (b : Ident) :
    compactPayload B (compactDigits B b) = shiftBytes 0 b := by
  have hlist : (shiftBytes 0 b).toList = (packContent b).toList ++ [(variantNibbleOf b ++ 0#4) >>> 0] :=
    Vector.toList_push
  have hcontent : bytesOfNumber 15 (contentNumber (numberOfIdent b)) = (packContent b).toList := by
    have h := bytesOfNumber_byteValues (packContent b).toList
    rwa [Vector.length_toList, numberBE_packContent] at h
  have hnibble : BitVec.ofNat 4 (numberOfIdent b / 2 ^ 60 % 16) = variantNibbleOf b := by
    rw [← toNat_variantNibbleOf, BitVec.ofNat_toNat, BitVec.setWidth_eq]
  apply Vector.toList_inj.mp
  rw [toList_compactPayload, compactDigits, List.dropLast_concat, List.getLastD_concat, numberBE_digitsBE,
    pow_contentDigits, Nat.mod_eq_of_lt (contentNumber_lt b), hcontent, hnibble, hlist, BitVec.ushiftRight_zero]

theorem compactIdent_compactDigits (B : CompactBase) (b : Ident) :
    compactIdent B (versionOf b) (compactDigits B b) = b := by
  rw [compactIdent, compactPayload_compactDigits, unshiftBytes_shiftBytes b (by decide)]

/-- The version character is the leading character of its version. -/
theorem leadVersion_versionChar {v : BitVec 4} (h : v = 4 ∨ v = 7) : leadVersion (versionChar v) = some v := by
  rcases h with rfl | rfl <;> decide

theorem parseCompact_compactDigits (B : CompactBase) {b : Ident} (hver : versionOf b = 4 ∨ versionOf b = 7)
    (hvar : variantOf b = 2) {cs : List Byte} (hcs : digitValues B.value cs = some (compactDigits B b)) :
    parseCompact B (versionChar (versionOf b) :: cs) = .ok b := by
  have hlead : leadVersion (charAt (versionChar (versionOf b) :: cs) 0) = some (versionOf b) :=
    leadVersion_versionChar hver
  rw [parseCompact_digits B hlead hver hcs, compactIdent_compactDigits, if_pos hvar]

/-- The characters after the version character, for one base's alphabet. -/
theorem digitValues_groupDigits (b : Ident) {k len : Nat} (hk : k < 3) (hlen : (4 + k) * (len + 2) = 128 + 2 * k)
    {alphabet : List Byte} {value : Byte → Option Nat} (hsym : ∀ n < 2 ^ (4 + k), value (symbol alphabet n) = some n) :
    digitValues value (((groupDigits (4 + k) (len + 2) (shiftBytes k b)).map (symbol alphabet)).take (len + 1)) =
      some (digitsBE (2 ^ (4 + k)) len (contentNumber (numberOfIdent b)) ++ [numberOfIdent b / 2 ^ 60 % 16]) := by
  rw [← List.map_take, take_groupDigits_shiftBytes b hk hlen]
  refine digitValues_map_symbol hsym _ fun d hd => ?_
  rcases List.mem_append.mp hd with h | h
  · exact digitsBE_lt (Nat.two_pow_pos _) _ _ d h
  · rw [List.mem_singleton.mp h, Nat.pow_add]
    have := Nat.two_pow_pos k
    omega

theorem parseCompact_compact32Text {b : Ident} (h : b.wellFormed = true) :
    parseCompact .b32 (compact32Text b) = .ok b := by
  obtain rfl | rfl | ⟨hver, hvar⟩ := (wellFormed_iff b).mp h
  · decide
  · decide
  · exact parseCompact_compactDigits .b32 hver hvar
      (digitValues_groupDigits b (k := 1) (len := 24) (by decide) (by decide) base32Value_symbol)

theorem parseCompact_compact64Text {b : Ident} (h : b.wellFormed = true) :
    parseCompact .b64 (compact64Text b) = .ok b := by
  obtain rfl | rfl | ⟨hver, hvar⟩ := (wellFormed_iff b).mp h
  · decide
  · decide
  · exact parseCompact_compactDigits .b64 hver hvar
      (digitValues_groupDigits b (k := 2) (len := 20) (by decide) (by decide) base64Value_symbol)

/-- A compact form begins with its version character, so no quotes are stripped. -/
theorem parseText_versionChar (v : BitVec 4) (cs : List Byte) :
    parseText (versionChar v :: cs) = parseStripped (versionChar v :: cs) := by
  have hquote : ∀ v : BitVec 4, versionChar v ≠ 0x22 := by decide
  exact parseText_unquoted (.inl fun h => hquote v (Option.some.inj h))

theorem parseText_compact32Text {b : Ident} (h : b.wellFormed = true) : parseText (compact32Text b) = .ok b :=
  (parseText_versionChar _ _).trans
    ((parseStripped_of_length_26 (length_compact32Text b)).trans (parseCompact_compact32Text h))

theorem parseText_compact64Text {b : Ident} (h : b.wellFormed = true) : parseText (compact64Text b) = .ok b :=
  (parseText_versionChar _ _).trans
    ((parseStripped_of_length_22 (length_compact64Text b)).trans (parseCompact_compact64Text h))

/-- Settles O50: PARSE undoes both compact forms. -/
theorem compactFormsRoundTrip : Obligations.CompactFormsRoundTrip := by
  intro s h hwf
  obtain ⟨u, hu⟩ := copyOutputToInput_parses h runsParser_parse (by simp) (parseText_compact32Text hwf)
  obtain ⟨w, hw⟩ := copyOutputToInput_parses h runsParser_parse (by simp) (parseText_compact64Text hwf)
  exact ⟨⟨_, u, rfl, hu⟩, ⟨_, w, rfl, hw⟩⟩

/-! ### The short form (45_format.md R324) -/

theorem isSpace_of_mem_shortText (b : Ident) : ∀ c ∈ shortText b, isSpace c = false := by
  have hsym : ∀ n < 57, isSpace (symbol alpha57 n) = false := by decide
  intro c hc
  obtain ⟨n, hn, rfl⟩ := List.mem_map.mp hc
  exact hsym n (digitsBE_lt (by decide) 22 _ n hn)

theorem parseShortText_shortText {b : Ident} (h : b.wellFormed = true) : parseShortText (shortText b) = .ok b := by
  have hrange : numberBE 57 (digitsBE 57 22 (numberOfIdent b)) < 2 ^ 128 := by
    rw [numberBE_shortDigits]
    exact numberOfIdent_lt b
  rw [parseShortText, trim_eq_self (isSpace_of_mem_shortText b),
    parseShortTrimmed_inRange (length_shortText b) (digitValues_shortText b) hrange, numberBE_shortDigits,
    identOfNumber_numberOfIdent, validated_of_wellFormed h]

/-! ### The raw form (44_parse.md R273, R274) -/

theorem parseText_toList_of_unquoted {b : Ident} (h : b.wellFormed = true) (hquote : ¬ (b[0] = 0x22 ∧ b[15] = 0x22)) :
    parseText b.toList = .ok b := by
  have hfirst : b.toList.head? = some b[0] := congrArg List.head? (toList_ident b)
  have hlast : b.toList.getLast? = some b[15] := congrArg List.getLast? (toList_ident b)
  have hends : b.toList.head? ≠ some 0x22 ∨ b.toList.getLast? ≠ some 0x22 ∨ b.toList.length < 2 := by
    rw [hfirst, hlast]
    rcases not_and_or.mp hquote with h0 | h15
    · exact .inl fun heq => h0 (Option.some.inj heq)
    · exact .inr (.inl fun heq => h15 (Option.some.inj heq))
  rw [parseText_unquoted hends, parseStripped_toList, validated_of_wellFormed h]

/-- Between two quotes only 14 bytes are left, which is no form's length. -/
theorem parseText_toList_of_quoted {b : Ident} (h0 : b[0] = 0x22) (h15 : b[15] = 0x22) :
    parseText b.toList = .error .malformedLength := by
  have hsplit : b.toList = (0x22 : Byte) ::
      [b[1], b[2], b[3], b[4], b[5], b[6], b[7], b[8], b[9], b[10], b[11], b[12], b[13], b[14]] ++ [0x22] := by
    rw [toList_ident, h0, h15]
    rfl
  rw [hsplit, parseText_quoted]
  exact parseStripped_of_other_length (by simp)

/-- Settles O51: the decoders undo both forms, but for the quotes that PARSE strips from a raw form. -/
theorem shortAndRawFormsRoundTrip : Obligations.ShortAndRawFormsRoundTrip := by
  intro s h hwf
  have hraw : s.port.id.toList.length ≤ 64 := by simp
  refine ⟨?_, fun hquote => ?_, fun ⟨h0, h15⟩ => ?_⟩
  · obtain ⟨u, hu⟩ := copyOutputToInput_parses h runsParser_parseShort (by simp) (parseShortText_shortText hwf)
    exact ⟨_, u, rfl, hu⟩
  · obtain ⟨u, hu⟩ := copyOutputToInput_parses h runsParser_parse hraw (parseText_toList_of_unquoted hwf hquote)
    exact ⟨_, u, rfl, hu⟩
  · have hexec := exec_copyOutputToInput h runsParser_parse hraw
    rw [parseText_toList_of_quoted h0 h15] at hexec
    exact ⟨_, _, rfl, hexec, port_finishParse_error (copyOutputToInput_cur_lt (formatStep_cur_lt h _)) .malformedLength⟩

end Sys2Proof
end

section
/-! SUPPORT. The raw form, and the forms of nil and max (45_format.md R325, R327). -/

namespace Sys2Proof

open Sys2Proof.Machine

/-! ### The raw form (30_encoding.md R130, 45_format.md R325) -/

/-- Padded to a longer array, a byte array keeps its elements, and both read 0 past the shorter one's end. -/
theorem byteAt_bytesPadded_toList {m n : Nat} (v : Vector Byte m) (h : m ≤ n) (i : Nat) :
    byteAt (bytesPadded n v.toList) i = byteAt v i := by
  by_cases hi : i < m
  · rw [byteAt_bytesPadded_lt (by omega) (by simpa using hi), byteAt_eq_getElem v hi, Vector.getElem_toList]
  · rw [byteAt_bytesPadded_ge (by simpa using hi)]
    simp [byteAt, hi]

theorem laneWord_bytesPadded_toList {m n : Nat} (v : Vector Byte m) (h : m ≤ n) (j : Nat) :
    laneWord (bytesPadded n v.toList) j = laneWord v j := by
  simp only [laneWord, byteAt_bytesPadded_toList v h]

/-- Settles O47: OBUF is ID padded to 64 bytes, which reads the same by bytes and by words. -/
theorem rawFormatCopiesTheIdentifier : Obligations.RawFormatCopiesTheIdentifier := by
  refine ⟨decodeOpcode_opcodeOf .fmtRaw, fun s => ⟨_, ?exec, rfl, fun i _ => ?bytes, fun i hi => ?pad, fun j _ => ?words⟩⟩
  case exec => exact congrArg Host.Outcome.next (formatStep_eq s Vector.length_toList)
  case bytes => exact byteAt_bytesPadded_toList s.port.id (by decide) i
  case pad => exact byteAt_bytesPadded_ge (Vector.length_toList.trans_le hi)
  case words => exact laneWord_bytesPadded_toList s.port.id (by decide) j

/-! ### The forms of nil and max (00_scope.md R18, 45_format.md R327) -/

/-- The format command `i` writes `b` as the string `f`, which PARSE reads as `b` unless it is a base-57 form. -/
def HasFixedForm (i : Instr) (b : Ident) (f : List Byte) : Prop :=
  (∀ s : State, s.port.id = b →
    exec i s = .next
      (endedWith s s.g { s.port with obuf := bytesPadded 64 f, olen := BitVec.ofNat 8 f.length } 0)) ∧
  (i ≠ .fmtShort → ∀ s : State, s.port.input = f → s.port.ilen.toNat = f.length →
    exec .parse s = .next (endedWith s s.g { s.port with id := b } 0))

theorem exec_parse_of_input {s : State} {b : Ident} {f : List Byte} (hinput : s.port.input = f)
    (hilen : s.port.ilen.toNat = f.length) (hfits : f.length ≤ 64) (hparse : parseText f = .ok b) :
    exec .parse s = .next (endedWith s s.g { s.port with id := b } 0) := by
  have htext : s.port.ibuf.toList.take s.port.ilen.toNat = f := hinput
  rw [exec_parse_fits (hilen.trans_le hfits), htext, hparse, finishParse_ok]

section
variable {i : Instr} {form : Ident → List Byte} (hi : ∀ s, exec i s = .next (s.formatStep (form s.port.id)))
  {b : Ident} {f : List Byte} (hf : form b = f)
include hi hf

theorem exec_format_of_id {s : State} (hid : s.port.id = b) :
    exec i s = .next
      (endedWith s s.g { s.port with obuf := bytesPadded 64 f, olen := BitVec.ofNat 8 f.length } 0) := by
  rw [hi, hid, hf, formatStep_eq s rfl]

/-- A form that PARSE reads back. -/
theorem hasFixedForm_of_parses (hfits : (form b).length ≤ 64) (hparse : parseText (form b) = .ok b) :
    HasFixedForm i b f :=
  ⟨fun _ => exec_format_of_id hi hf,
    fun _ _ hinput hilen => exec_parse_of_input hinput hilen (hf ▸ hfits) (hf ▸ hparse)⟩

end

section
variable {b : Ident} {f : List Byte}

theorem hasFixedForm_canonical (h : b.wellFormed = true) (hf : canonicalText b = f) : HasFixedForm .fmtCanonical b f :=
  hasFixedForm_of_parses (fun _ => rfl) hf (by simp) (parseText_canonicalText h)

theorem hasFixedForm_compact32 (h : b.wellFormed = true) (hf : compact32Text b = f) : HasFixedForm .fmtC32 b f :=
  hasFixedForm_of_parses (fun _ => rfl) hf (by simp) (parseText_compact32Text h)

theorem hasFixedForm_compact64 (h : b.wellFormed = true) (hf : compact64Text b = f) : HasFixedForm .fmtC64 b f :=
  hasFixedForm_of_parses (fun _ => rfl) hf (by simp) (parseText_compact64Text h)

theorem hasFixedForm_short (hf : shortText b = f) : HasFixedForm .fmtShort b f :=
  ⟨fun _ => exec_format_of_id (fun _ => rfl) hf, fun hne => absurd rfl hne⟩

end

theorem wellFormed_nil : Ident.nil.wellFormed = true := (wellFormed_iff _).mpr (.inl rfl)

theorem wellFormed_max : Ident.max.wellFormed = true := (wellFormed_iff _).mpr (.inr (.inl rfl))

/-- The four forms of nil are the literals of R18. -/
theorem forms_nil : canonicalText Ident.nil = nilCanon ∧ compact32Text Ident.nil = nilC32 ∧
    compact64Text Ident.nil = nilC64 ∧ shortText Ident.nil = nilS57 := by decide

/-- The four forms of max are the literals of R18. -/
theorem forms_max : canonicalText Ident.max = maxCanon ∧ compact32Text Ident.max = maxC32 ∧
    compact64Text Ident.max = maxC64 ∧ shortText Ident.max = maxS57 := by decide

/-- Settles O48: the round trips of well-formed identifiers at nil and max, whose forms are the literals. -/
theorem nilAndMaxHaveTheirFixedForms : Obligations.NilAndMaxHaveTheirFixedForms := by
  intro i b f hmem
  change HasFixedForm i b f
  obtain ⟨hcanonNil, h32Nil, h64Nil, hshortNil⟩ := forms_nil
  obtain ⟨hcanonMax, h32Max, h64Max, hshortMax⟩ := forms_max
  simp only [List.mem_cons, Prod.mk.injEq, List.not_mem_nil, or_false] at hmem
  rcases hmem with ⟨rfl, rfl, rfl⟩ | ⟨rfl, rfl, rfl⟩ | ⟨rfl, rfl, rfl⟩ | ⟨rfl, rfl, rfl⟩ | ⟨rfl, rfl, rfl⟩ |
    ⟨rfl, rfl, rfl⟩ | ⟨rfl, rfl, rfl⟩ | ⟨rfl, rfl, rfl⟩
  · exact hasFixedForm_canonical wellFormed_nil hcanonNil
  · exact hasFixedForm_compact32 wellFormed_nil h32Nil
  · exact hasFixedForm_compact64 wellFormed_nil h64Nil
  · exact hasFixedForm_short hshortNil
  · exact hasFixedForm_canonical wellFormed_max hcanonMax
  · exact hasFixedForm_compact32 wellFormed_max h32Max
  · exact hasFixedForm_compact64 wellFormed_max h64Max
  · exact hasFixedForm_short hshortMax

end Sys2Proof
end

section
/-! SUPPORT. The fatal event of a negative tick (60_exceptions.md R361): what GEN_V7, GEN_V7_AT and the spin step of
GEN_V7_STRICT raise, and the host's way to it through ARG_NS. -/

namespace Sys2Proof

open Sys2Proof.Machine

/-! ### The three commands on a negative tick -/

/-- The machine after PreEpochTime. -/
def afterPreEpoch (s : State) : State := { s with g := { s.g with fatalCause := 7, phase := .fatal } }

theorem raiseFatal_preEpochTime (s : State) : s.raiseFatal .preEpochTime = afterPreEpoch s := rfl

theorem exec_genV7At_of_neg {s : State} (h : s.port.argNs.toInt < 0) : exec .genV7At s = .next (afterPreEpoch s) :=
  congrArg Host.Outcome.next (generateV7_of_neg s (not_le.mpr h))

section
variable {s : State} {ns : BitVec 64} {e : Env} (hsample : Sampled s ns e) (hneg : ns.toInt < 0)
include hsample hneg

theorem exec_genV7_of_neg : exec .genV7 s = .next (afterPreEpoch (s.setEnv e)) := by
  rw [exec_genV7_of_sampled hsample, generateV7_of_neg _ (not_le.mpr hneg), raiseFatal_preEpochTime]

theorem exec_genV7Strict_of_neg (hseq : s.port.seq = .strictSpin) :
    exec .genV7Strict s = .next (afterPreEpoch (s.setEnv e)) := by
  rw [exec_genV7Strict_of_spinning hseq hsample, strictSpinOn_of_neg _ (not_le.mpr hneg), raiseFatal_preEpochTime]

end

theorem portStep_afterPreEpoch (s : State) (p : Nat) : (afterPreEpoch s).portStep p = .next (afterPreEpoch s) :=
  portStep_disabled (.inl fun h => by cases h)

/-! ### A negative ARG_NS by two writes (30_encoding.md R119, 20_memory.md R85, R92) -/

/-- ARG_NS_HI holds the sign bit of ARG_NS. -/
theorem toInt_setHiWord_neg (x : BitVec 64) {v : Word} (h : v.getLsbD 31 = true) : (setHiWord x v).toInt < 0 := by
  have hmsb : (setHiWord x v).msb = true := by
    rw [setHiWord, BitVec.msb_append, if_neg (by decide), BitVec.msb_eq_getLsbD_last]
    exact h
  rw [BitVec.msb_eq_toInt] at hmsb
  exact of_decide_eq_true hmsb

section
variable {s : State} {p : Nat} {q : Port} (hp : PortIs s p q) (hidle : q.seq = .idle)
include hp hidle

theorem takeEvent_asmWr_argNsHi (v : Word) :
    s.takeEvent (asmWr s.base p .argNsHi v) =
      .next (afterPortWrite s p { q with argNs := setHiWord q.argNs v }) := by
  have hwrite := busWrite_portReg hp (r := .argNsHi) rfl v
  rw [write_of_idle (by simp) hidle] at hwrite
  exact hwrite

theorem takeEvent_asmCmd (hready : s.g.phase = .ready) (i : Instr) :
    s.takeEvent (asmCmd s.base p i) = .next (afterPortWrite s p (q.accept (opcodeOf i))) := by
  have hwrite := busWrite_portReg hp (r := .cmd) rfl (encode i)
  have hop : (encode i).extractLsb' 0 8 = opcodeOf i := opcodeField_encode i
  rw [write_cmd_accepted ⟨hready, hidle⟩, hop] at hwrite
  exact hwrite

end

theorem portStep_genV7At_of_neg {s : State} {p : Nat} {q : Port} (hready : s.g.phase = .ready)
    (hq : s.ports[p]? = some q) (hseq : q.seq = .busy 0x03) (hneg : q.argNs.toInt < 0) :
    s.portStep p = .next (afterPreEpoch (s.withCurrent p)) := by
  have hport : (s.withCurrent p).port = q := port_eq_of_getElem? hq
  rw [portStep_eq_runOpcode hready hq (by rw [hseq]; rfl), runOpcode_of_decode_ok (i := .genV7At) rfl]
  exact exec_genV7At_of_neg (hport ▸ hneg)

/-- GEN_V7_AT issued on an idle port whose ARG_NS is negative, and its perform step. -/
theorem takeEvents_genV7At_of_neg {s : State} {p : Nat} {q : Port} (hp : PortIs s p q) (hidle : q.seq = .idle)
    (hready : s.g.phase = .ready) (hneg : q.argNs.toInt < 0) :
    takeEvents [asmCmd s.base p .genV7At, .portStep p] s =
      .next (afterPreEpoch ((afterPortWrite s p (q.accept 0x03)).withCurrent p)) := by
  have hcmd := takeEvent_asmCmd hp hidle hready .genV7At
  have haccepted : (q.accept 0x03).seq = .busy 0x03 := rfl
  have hstep : (afterPortWrite s p (q.accept 0x03)).takeEvent (.portStep p) = _ :=
    portStep_genV7At_of_neg hready (portIs_afterPortWrite hp _).1 haccepted hneg
  exact (takeEvents_cons hcmd _).trans (takeEvents_cons hstep [])

/-- Settles O25: the sign test comes before Fill, the draw is all that the sample costs, and bit 31 of ARG_NS_HI is the
sign that GEN_V7_AT tests. -/
theorem negativeTickHaltsTheBlock : Obligations.NegativeTickHaltsTheBlock := by
  refine ⟨fun s => ⟨exec_genV7At_of_neg, fun ns e hsample hneg => ⟨exec_genV7_of_neg hsample hneg,
    exec_genV7Strict_of_neg hsample hneg⟩, portStep_afterPreEpoch s⟩, fun s p q v hp hready hidle hv => ?_⟩
  have hwrite := takeEvent_asmWr_argNsHi hp hidle v
  have hhalt := takeEvents_genV7At_of_neg (portIs_afterPortWrite hp { q with argNs := setHiWord q.argNs v }) hidle hready
    (toInt_setHiWord_neg q.argNs hv)
  exact ⟨_, (takeEvents_cons hwrite _).trans hhalt, rfl⟩

end Sys2Proof
end

section
/-! SUPPORT. The codes a command can end with (60_exceptions.md R350, R351), and the outcomes of a step of the commands that
work on a tick, which alone can raise a fatal event. -/

namespace Sys2Proof

open Sys2Proof.Machine

/-! ### The commands that always complete -/

/-- The commands that work on a tick (42_generate.md R214 to R216). -/
def tickCommands : List Instr := [.genV7, .genV7At, .genV7Strict]

/-- The codes that a command other than those on a tick can end with (R350, R351). -/
def possibleCodes (testMode : Bool) : Instr → List (BitVec 4)
  | .parse => [0, 1, 2, 3, 4, 5]
  | .parseShort => [0, 1, 3, 4, 5]
  | .fromBytes => [0, 1]
  | .testReseed => [if testMode then 0 else 8]
  | _ => [0]

/-- The command ended in `complete(p, err)` with one of its codes, and PHASE is as it was (R356). -/
def Completes (i : Instr) (s t : State) : Prop :=
  ∃ g p err, t = endedWith s g p err ∧ g.phase = s.g.phase ∧ err ∈ possibleCodes s.g.testMode i

theorem port_endedWith {s : State} (h : s.env.cur < s.nPorts) (g : Shared) (p : Port) (err : BitVec 4) :
    (endedWith s g p err).port = { p with err := err, done := true, seq := .idle } :=
  State.port_setPort h _

theorem completes_completeWith {i : Instr} {s : State} (h0 : 0 ∈ possibleCodes s.g.testMode i) (p : Port) :
    Completes i s (s.completeWith p) := ⟨s.g, p, 0, rfl, rfl, h0⟩

theorem completes_finishParse {i : Instr} {s : State} {r : Except ParseError Ident}
    (h0 : 0 ∈ possibleCodes s.g.testMode i) (he : ∀ e, r = .error e → e.code ∈ possibleCodes s.g.testMode i) :
    Completes i s (s.finishParse r) := by
  cases r with
  | ok b => exact completes_completeWith h0 _
  | error e => exact ⟨_, _, _, finishParse_error s e, rfl, he e rfl⟩

/-- PARSE_SHORT reads no separators (44_parse.md R292 to R297). -/
theorem parseShortText_ne_malformedSeparator (l : List Byte) : parseShortText l ≠ .error .malformedSeparator := by
  obtain ⟨-, -, hsep, -⟩ := parseShortDecodesAndChecksTheRange
  exact hsep l

theorem parseInput_ne_malformedSeparator {parser : List Byte → Except ParseError Ident}
    (h : ∀ l, parser l ≠ .error .malformedSeparator) (p : Port) : p.parseInput parser ≠ .error .malformedSeparator := by
  unfold Port.parseInput
  split
  · simp
  · exact h _

theorem code_mem_of_ne_malformedSeparator {e : ParseError} (h : e ≠ .malformedSeparator) :
    e.code ∈ ([1, 3, 4, 5] : List (BitVec 4)) := by
  cases e with
  | malformedSeparator => exact absurd rfl h
  | _ => decide

theorem exec_parse_completes (s : State) : ∃ t, exec .parse s = .next t ∧ Completes .parse s t :=
  ⟨_, rfl, completes_finishParse List.mem_cons_self fun e _ => List.mem_cons_of_mem 0 (code_mem e)⟩

theorem exec_parseShort_completes (s : State) : ∃ t, exec .parseShort s = .next t ∧ Completes .parseShort s t := by
  refine ⟨_, rfl, completes_finishParse List.mem_cons_self fun e he =>
    List.mem_cons_of_mem 0 (code_mem_of_ne_malformedSeparator ?_)⟩
  rintro rfl
  exact parseInput_ne_malformedSeparator parseShortText_ne_malformedSeparator s.port he

theorem exec_fromBytes_completes (s : State) : ∃ t, exec .fromBytes s = .next t ∧ Completes .fromBytes s t := by
  by_cases h : s.port.ilen = 16
  · exact ⟨_, exec_fromBytes_sixteen h, _, _, 0, rfl, rfl, by simp [possibleCodes]⟩
  · exact ⟨_, exec_fromBytes_other h, _, _, 1, rfl, rfl, by simp [possibleCodes]⟩

theorem exec_testReseed_completes (s : State) : ∃ t, exec .testReseed s = .next t ∧ Completes .testReseed s t := by
  cases hmode : s.g.testMode with
  | true => exact ⟨_, exec_testReseed_testMode hmode, _, _, 0, rfl, rfl, by simp [possibleCodes, hmode]⟩
  | false => exact ⟨_, exec_testReseed_production hmode, _, _, 8, rfl, rfl, by simp [possibleCodes, hmode]⟩

/-- Every command but those on a tick ends in its one step; only those of the parser and TEST_RESEED have other codes than 0. -/
theorem exec_completes {i : Instr} (hi : i ∉ tickCommands) (s : State) : ∃ t, exec i s = .next t ∧ Completes i s t := by
  cases i
  case parse => exact exec_parse_completes s
  case parseShort => exact exec_parseShort_completes s
  case fromBytes => exact exec_fromBytes_completes s
  case testReseed => exact exec_testReseed_completes s
  case genV7 => exact absurd (by decide) hi
  case genV7At => exact absurd (by decide) hi
  case genV7Strict => exact absurd (by decide) hi
  case genV4 => exact ⟨_, exec_genV4 s, _, _, 0, rfl, rfl, List.mem_singleton_self 0⟩
  all_goals exact ⟨_, rfl, completes_completeWith (List.mem_singleton_self 0) _⟩

/-! ### The commands on a tick -/

/-- A step of a command on a tick leaves PHASE and waits, takes the lock or completes with code 0; or it raises
PreEpochTime and leaves every port. -/
def TickOutcome (s t : State) : Prop :=
  (t.g.phase = s.g.phase ∧ t.g.fatalCause = s.g.fatalCause ∧
    (t.port = s.port ∨ t.port.err = 0 ∨ t.port.seq = .strictSpin)) ∨
  (t.g.phase = .fatal ∧ t.g.fatalCause = 7 ∧ t.ports = s.ports)

theorem TickOutcome.waits (s : State) : TickOutcome s s := .inl ⟨rfl, rfl, .inl rfl⟩

theorem TickOutcome.preEpochTime (s : State) : TickOutcome s (s.raiseFatal .preEpochTime) := .inr ⟨rfl, rfl, rfl⟩

/-- The clock sample changes neither the shared state nor a port. -/
theorem TickOutcome.ofAfterNow {s t : State} (h : TickOutcome s.afterNow t) : TickOutcome s t := by
  simpa only [TickOutcome, State.afterNow_g, State.afterNow_ports, State.afterNow_port] using h

section
variable {s : State} (hcur : s.env.cur < s.nPorts)
include hcur

theorem TickOutcome.completeV7 (ns : BitVec 64) : TickOutcome s (s.completeV7 ns) :=
  .inl ⟨rfl, rfl, .inr (.inl (congrArg Port.err (State.port_setPort (s := s.afterFill 8) hcur _)))⟩

theorem TickOutcome.generateV7 (ns : BitVec 64) : TickOutcome s (s.generateV7 ns) := by
  by_cases h0 : 0 ≤ ns.toInt
  · exact generateV7_of_nonneg s h0 ▸ .completeV7 hcur ns
  · exact generateV7_of_neg s h0 ▸ .preEpochTime s

theorem TickOutcome.strictSpinOn (ns : BitVec 64) : TickOutcome s (s.strictSpinOn ns) := by
  by_cases h0 : 0 ≤ ns.toInt
  · by_cases hlater : TickIsLater s.g ns
    · rw [strictSpinOn_of_later h0 hlater]
      exact TickOutcome.completeV7 (s := s.setShared _) hcur ns
    · exact (strictSpinOn_of_not_later h0 hlater).symm ▸ .waits s
  · exact strictSpinOn_of_neg s h0 ▸ .preEpochTime s

theorem TickOutcome.strictAcquire : TickOutcome s s.strictAcquire := by
  cases hlock : s.g.lock with
  | none =>
    rw [strictAcquire_of_free hlock]
    exact .inl ⟨rfl, rfl, .inr (.inr (congrArg Port.seq (State.port_setPort (s := s.setShared _) hcur _)))⟩
  | some k => exact (strictAcquire_of_held hlock).symm ▸ .waits s

theorem exec_genV7Strict_outcome : ∃ t, exec .genV7Strict s = .next t ∧ TickOutcome s t := by
  refine ⟨_, rfl, ?_⟩
  cases s.port.seq with
  | strictAcq => exact .strictAcquire hcur
  | strictSpin => exact .ofAfterNow (.strictSpinOn (by simpa using hcur) _)
  | idle => exact .waits s
  | busy op => exact .waits s

theorem exec_tickOutcome {i : Instr} (hi : i ∈ tickCommands) : ∃ t, exec i s = .next t ∧ TickOutcome s t := by
  simp only [tickCommands, List.mem_cons, List.not_mem_nil, or_false] at hi
  rcases hi with rfl | rfl | rfl
  · exact ⟨_, rfl, .ofAfterNow (.generateV7 (by simpa using hcur) _)⟩
  · exact ⟨_, rfl, .generateV7 hcur _⟩
  · exact exec_genV7Strict_outcome hcur

end

/-! ### The codes of every command -/

/-- The commands that end with code 0 only. -/
def codeZeroCommands : List Instr :=
  [.nop, .genV4, .getVersion, .getVariant, .getTime, .shift, .shiftB32, .shiftB64, .unshift, .unshiftB32, .unshiftB64,
    .fmtCanonical, .fmtC32, .fmtC64, .fmtShort, .fmtRaw, .fmtJson]

theorem possibleCodes_of_codeZero {i : Instr} (hi : i ∈ codeZeroCommands) (testMode : Bool) :
    possibleCodes testMode i = [0] := by
  revert i testMode; decide

theorem tickCommands_have_no_codes : ∀ i ∈ tickCommands,
    i ∉ codeZeroCommands ∧ i ≠ .parse ∧ i ≠ .parseShort ∧ i ≠ .fromBytes ∧ i ≠ .testReseed := by decide

/-- Settles O52: a command on a tick has one of the outcomes above, and every other command completes with its codes. -/
theorem eachCommandHasItsPossibleCodes : Obligations.EachCommandHasItsPossibleCodes := by
  intro i s hcur
  by_cases hi : i ∈ tickCommands
  · obtain ⟨t, ht, hout⟩ := exec_tickOutcome hcur hi
    obtain ⟨hzero, hparse, hshort, hbytes, hreseed⟩ := tickCommands_have_no_codes i hi
    exact ⟨t, ht, fun h => absurd h hzero, fun h => absurd h hparse, fun h => absurd h hshort,
      fun h => absurd h hbytes, fun h => absurd h hreseed, fun h => absurd hi h, fun _ => hout⟩
  · obtain ⟨_, ht, g, p, err, rfl, hphase, hcode⟩ := exec_completes hi s
    refine ⟨_, ht, ?_⟩
    rw [port_endedWith hcur]
    refine ⟨fun h => ?_, ?_, ?_, ?_, ?_, fun _ => ⟨rfl, rfl, hphase⟩, fun h => absurd h hi⟩
    · exact List.mem_singleton.mp (possibleCodes_of_codeZero h s.g.testMode ▸ hcode)
    · rintro rfl; exact hcode
    · rintro rfl; exact hcode
    · rintro rfl; exact hcode
    · rintro rfl; exact List.mem_singleton.mp hcode

end Sys2Proof
end

section
/-! SUPPORT. Progress under PORT_PROGRESS (70_reset_and_hazards.md R405): no event but a reset, a fatal event or a port's own
step ends its wait, so its own step stays enabled until it is taken, and that step brings the port on. -/

namespace Sys2Proof

open Sys2Proof.Machine

/-! ### What an event leaves of a READY block (10_state.md R32, 70_reset_and_hazards.md R392) -/

theorem commandEffect_phase {i : Instr} {s t : State} (he : CommandEffect i s t) :
    t.g.phase = s.g.phase ∨ t.g.phase = .fatal := by
  cases he with
  | waits e _ _ => exact .inl rfl
  | acquires _ _ _ => exact .inl rfl
  | ends e g p err _ _ _ hg => exact .inl hg.phase
  | fatal e c _ => exact .inr rfl

/-- From READY only a fatal event or a reset leads away. -/
theorem takeEvent_ready {s t : State} {e : Event} (ht : s.takeEvent e = .next t) (hready : s.g.phase = .ready)
    (hr : isReset e = false) : t.g.phase = .ready ∨ t.g.phase = .fatal := by
  rw [← hready]
  cases e with
  | read a n => obtain ⟨r, rfl⟩ := busRead_cases ht; exact .inl rfl
  | write a n v =>
    rcases busWrite_cases ht with rfl | ⟨off, -, -, rfl⟩
    · exact .inl rfl
    · rcases writeReg_cases s off v with ⟨-, clock, seed, hw⟩ | ⟨p, r, hw⟩ | hw <;> rw [hw] <;> exact .inl rfl
  | portStep p =>
    rcases portStep_cases ht with ⟨-, rfl⟩ | ⟨-, op, -, ⟨i, -, he, -⟩ | ⟨x, -, rfl⟩⟩
    · exact .inl rfl
    · exact commandEffect_phase (s := s.withCurrent p) he
    · exact .inl rfl
  | seedStep =>
    obtain rfl := Host.Outcome.next.inj ht
    exact .inl (congrArg (fun u : State => u.g.phase) (seedingStep_halted (by simp [hready])))
  | reset strap => cases hr

/-! ### What an event leaves of a port's sequencer (10_state.md R39, 20_memory.md R92) -/

theorem SeqIs.ofSamePort {s t : State} {p : Nat} {seq : Seq} (h : SeqIs s p seq) (hp : t.ports[p]? = s.ports[p]?) :
    SeqIs t p seq := by
  obtain ⟨q, hq, hseq⟩ := h
  exact ⟨q, hp.trans hq, hseq⟩

/-- A busy port's sequencer takes no write, whatever port the write is for. -/
theorem SeqIs.writePort {s : State} {p : Nat} {seq : Seq} (h : SeqIs s p seq) (hbusy : seq ≠ .idle) (k : Nat) (v : Word)
    (r : PortReg) : SeqIs { s with ports := s.ports.modify k fun q => q.write s.g.phase v r } p seq := by
  obtain ⟨q, hq, rfl⟩ := h
  by_cases hk : k = p
  · refine ⟨q.write s.g.phase v r, by simp [hk, hq], ?_⟩
    rcases seq_write q s.g.phase v r with hw | ⟨-, hidle, -⟩
    · exact hw
    · exact absurd hidle hbusy
  · exact ⟨q, by simp [hk, hq], rfl⟩

theorem busWrite_keepsSeq {s t : State} {a n : Nat} {v : Word} {p : Nat} {seq : Seq} (h : SeqIs s p seq)
    (hbusy : seq ≠ .idle) (ht : s.busWrite a n v = .next t) : SeqIs t p seq := by
  rcases busWrite_cases ht with rfl | ⟨off, -, -, rfl⟩
  · exact h.ofSamePort rfl
  · rcases writeReg_cases s off v with ⟨-, clock, seed, hw⟩ | ⟨k, r, hw⟩ | hw <;> rw [hw]
    · exact h.ofSamePort rfl
    · exact (h.writePort hbusy k v r).ofSamePort rfl
    · exact h.ofSamePort rfl

theorem portStep_keeps_others {s t : State} {k p : Nat} (hp : p ≠ k) (ht : s.portStep k = .next t) :
    t.ports[p]? = s.ports[p]? := by
  rcases portStep_cases ht with ⟨-, rfl⟩ | ⟨-, op, -, ⟨i, -, -, hx⟩ | ⟨x, -, rfl⟩⟩
  · rfl
  · obtain ⟨-, -, -, hothers⟩ := exec_keeps_others hx
    exact hothers p hp
  · exact State.setPort_ports_ne (s.withCurrent k) _ hp

/-- A busy port's sequencer moves by its own step or a reset only. -/
theorem takeEvent_keepsSeq {s t : State} {e : Event} {p : Nat} {seq : Seq} (ht : s.takeEvent e = .next t) (h : SeqIs s p seq)
    (hbusy : seq ≠ .idle) (hr : isReset e = false) (he : e ≠ .portStep p) : SeqIs t p seq := by
  cases e with
  | read a n => obtain ⟨r, rfl⟩ := busRead_cases ht; exact h.ofSamePort rfl
  | write a n v => exact busWrite_keepsSeq h hbusy ht
  | portStep k => exact h.ofSamePort (portStep_keeps_others (fun hpk => he (hpk ▸ rfl)) ht)
  | seedStep => exact Host.Outcome.next.inj ht ▸ h.ofSamePort (congrArg (·[p]?) (seedingStep_ports s))
  | reset strap => cases hr

/-! ### A port waiting for its own step in an execution -/

/-- The block is READY, and port `p` is in the state `seq` of its sequencer. -/
structure Waiting (p : Nat) (seq : Seq) (s : State) : Prop where
  ready : s.g.phase = .ready
  seq : SeqIs s p seq

theorem Waiting.next {s t : State} {e : Event} {p : Nat} {seq : Seq} (h : Waiting p seq s) (hbusy : seq ≠ .idle)
    (hr : isReset e = false) (he : e ≠ .portStep p) (ht : Takes s e t) (hfatal : t.g.phase ≠ .fatal) :
    Waiting p seq t := by
  obtain ⟨events, eventNo, ht⟩ := ht
  exact ⟨(takeEvent_ready ht h.ready hr).resolve_right hfatal, takeEvent_keepsSeq ht h.seq hbusy hr he⟩

theorem Waiting.stepEnabled {s : State} {p : Nat} {seq : Seq} (h : Waiting p seq s) (hbusy : seq ≠ .idle)
    (hfree : seq = .strictAcq → s.g.lock = none) : s.stepEnabled (.portStep p) = true := by
  obtain ⟨hready, q, hq, rfl⟩ := h
  have hport : (s.withCurrent p).port = q := port_eq_of_getElem? hq
  have hgetD : s.ports.getD p Port.reset = q := hport
  have hen : s.portEnabled p = true :=
    (portEnabled_iff s p).mpr ⟨hready, hport ▸ hbusy, (List.getElem?_eq_some_iff.mp hq).1⟩
  rw [State.stepEnabled, hen, hgetD]
  by_cases hacq : q.seq = .strictAcq
  · simp [hfree hacq]
  · simp [hacq]

/-- If the own step of a waiting port reaches the goal or Fatal, the execution reaches the goal, Fatal or a reset. -/
theorem reaches_of_waiting {run : Nat → State} {ev : Nat → Event} (hrun : IsExecution run ev) (hprog : PortProgress run ev)
    {n p : Nat} {seq : Seq} {goal : State → Prop} (hbusy : seq ≠ .idle) (hn : Waiting p seq (run n))
    (hfree : seq = .strictAcq → ∀ m, n ≤ m → SeqIs (run m) p seq → (run m).g.lock = none)
    (hstep : ∀ m t, n ≤ m → Waiting p seq (run m) → Takes (run m) (.portStep p) t → t.g.phase = .fatal ∨ goal t) :
    Reaches run ev n goal := by
  by_contra hnever
  have hno : ∀ m, n ≤ m → isReset (ev m) = false ∧ (run m).g.phase ≠ .fatal ∧ ¬ goal (run m) := fun m hm => by
    refine ⟨?_, fun h => hnever ⟨m, hm, .inr (.inl h)⟩, fun h => hnever ⟨m, hm, .inr (.inr h)⟩⟩
    exact Bool.eq_false_iff.mpr fun h => hnever ⟨m, hm, .inl h⟩
  have hother : ∀ m, n ≤ m → Waiting p seq (run m) → ev m ≠ .portStep p := fun m hm hw he => by
    obtain ⟨-, hfatal, hgoal⟩ := hno (m + 1) (by omega)
    exact (hstep m _ hm hw (he ▸ hrun m)).elim hfatal hgoal
  have hwaits : ∀ m, n ≤ m → Waiting p seq (run m) := fun m hm => by
    induction m, hm using Nat.le_induction with
    | base => exact hn
    | succ m hm ih =>
      exact ih.next hbusy (hno m hm).1 (hother m hm ih) (hrun m) (hno (m + 1) (by omega)).2.1
  obtain ⟨m, hm, he⟩ := hprog (.portStep p) n fun m hm =>
    (hwaits m hm).stepEnabled hbusy fun hacq => hfree hacq m hm (hwaits m hm).seq
  exact hother m hm (hwaits m hm) he

/-! ### The own step of a waiting port -/

theorem completed_of_set {s t : State} {p : Nat} (hp : p < s.nPorts) {q : Port} {err : BitVec 4}
    (ht : t.ports = s.ports.set p (q.complete err)) : Completed t p :=
  ⟨q.complete err, by rw [ht]; exact List.getElem?_set_self hp, rfl, rfl⟩

/-- A command but GEN_V7_STRICT completes in its perform step or raises a fatal event (60_exceptions.md R356). -/
theorem commandEffect_completes {i : Instr} {s t : State} (he : CommandEffect i s t) (hi : i ≠ .genV7Strict)
    (hcur : s.env.cur < s.nPorts) : t.g.phase = .fatal ∨ Completed t s.env.cur := by
  cases he with
  | waits e hi' _ => exact absurd hi' hi
  | acquires hi' _ _ => exact absurd hi' hi
  | ends e g p err _ _ _ _ => exact .inr (completed_of_set hcur rfl)
  | fatal e c _ => exact .inl rfl

theorem perform_completes {s t : State} {p : Nat} {op : Byte} (ht : s.portStep p = .next t) (hop : op ≠ 0x04)
    (h : Waiting p (.busy op) s) : t.g.phase = .fatal ∨ Completed t p := by
  obtain ⟨hready, q, hq, hseq⟩ := h
  have hp : p < s.nPorts := (List.getElem?_eq_some_iff.mp hq).1
  rw [portStep_eq_runOpcode (op := op) hready hq (by rw [hseq]; rfl)] at ht
  cases hd : decodeOpcode op with
  | ok i =>
    have hi : i ≠ .genV7Strict := fun hi => hop (hi ▸ opcodeOf_of_decodeOpcode hd).symm
    obtain ⟨u, hu, he⟩ := exec_effect i (s.withCurrent p)
    rw [runOpcode_of_decode_ok hd, hu] at ht
    obtain rfl := Host.Outcome.next.inj ht
    exact commandEffect_completes he hi hp
  | error x =>
    rw [runOpcode_of_decode_error hd] at ht
    obtain rfl := Host.Outcome.next.inj ht
    exact .inr (completed_of_set hp rfl)

theorem acquire_spins {s t : State} {p : Nat} (ht : s.portStep p = .next t) (h : Waiting p .strictAcq s)
    (hfree : s.g.lock = none) : SeqIs t p .strictSpin := by
  obtain ⟨hready, q, hq, hseq⟩ := h
  rw [portStep_of_strictAcq hready hq hseq, strictAcquire_of_free (s := s.withCurrent p) hfree] at ht
  obtain rfl := Host.Outcome.next.inj ht
  exact ⟨_, List.getElem?_set_self (List.getElem?_eq_some_iff.mp hq).1, rfl⟩

/-- The spin step compares the pair of the sample with the last-issued pair (42_generate.md R218, R219). -/
theorem tickIsLater_of_sampleIsLater {s : State} (h : SampleIsLater s) : TickIsLater s.g s.nowValue := by
  obtain ⟨h0, hlater⟩ := h
  rw [TickIsLater, laterPair_iff_packed_lt, toNat_msRegister h0, toNat_slotRegister]
  exact hlater

theorem spin_completes {s t : State} {p : Nat} (ht : s.portStep p = .next t) (h : Waiting p .strictSpin s)
    (hlater : SampleIsLater s) : Completed t p := by
  obtain ⟨hready, q, hq, hseq⟩ := h
  have h0 : 0 ≤ (s.withCurrent p).nowValue.toInt := hlater.1
  have hl : TickIsLater (s.withCurrent p).afterNow.g (s.withCurrent p).nowValue := by
    rw [State.afterNow_g]
    exact tickIsLater_of_sampleIsLater (s := s.withCurrent p) hlater
  rw [portStep_of_strictSpin hready hq hseq, strictSpinOn_of_later h0 hl] at ht
  obtain rfl := Host.Outcome.next.inj ht
  exact completed_of_set (s := s) (List.getElem?_eq_some_iff.mp hq).1
    (congr (congrArg₂ List.set (State.afterNow_ports _) (State.afterNow_cur _)) rfl)

/-! ### The seeding sequencer (40_service.md R173, 70_reset_and_hazards.md R392) -/

theorem seedNow_not_seeding (s : State) : s.seedNow.g.phase ≠ .seeding := by
  cases hmode : s.g.testMode with
  | true => rw [seedNow_testMode hmode]; exact fun h => by cases h
  | false =>
    cases hdraw : s.entropyValue with
    | none => rw [seedNow_short hmode hdraw]; exact fun h => by cases h
    | some seed => rw [seedNow_full hmode hdraw]; exact fun h => by cases h

theorem takes_seedStep_not_seeding {s t : State} (hphase : s.g.phase = .seeding) (ht : Takes s .seedStep t) :
    t.g.phase ≠ .seeding := by
  obtain ⟨events, eventNo, ht⟩ := ht
  obtain rfl := Host.Outcome.next.inj ht
  rw [seedingStep_of_seeding (by exact hphase)]
  exact seedNow_not_seeding _

theorem seeding_ends {run : Nat → State} {ev : Nat → Event} (hrun : IsExecution run ev) (hprog : PortProgress run ev)
    (n : Nat) : ∃ m, n ≤ m ∧ (run m).g.phase ≠ .seeding := by
  by_contra hnever
  have hseeding : ∀ m, n ≤ m → (run m).g.phase = .seeding := fun m hm =>
    Decidable.not_not.mp fun h => hnever ⟨m, hm, h⟩
  obtain ⟨m, hm, he⟩ := hprog .seedStep n fun m hm => decide_eq_true (hseeding m hm)
  exact takes_seedStep_not_seeding (hseeding m hm) (he ▸ hrun m) (hseeding (m + 1) (by omega))

/-- Settles O60: a port with a command in progress waits for its own step, which PORT_PROGRESS promises, and that step
performs the command, takes the free lock, or completes on the later sample. -/
theorem progressCompletesCommands : Obligations.ProgressCompletesCommands := by
  intro run ev hrun hprog n
  refine ⟨fun _ => seeding_ends hrun hprog n, fun hready p => ⟨fun op hop hseq => ?_, fun hseq hfree => ?_,
    fun hseq hlater => ?_⟩⟩
  · refine reaches_of_waiting hrun hprog (by simp) ⟨hready, hseq⟩ (fun h => by cases h) fun m t _ hw ht => ?_
    obtain ⟨events, eventNo, ht⟩ := ht
    exact perform_completes ht hop ⟨hw.ready, hw.seq⟩
  · refine reaches_of_waiting hrun hprog (by simp) ⟨hready, hseq⟩ (fun _ => hfree) fun m t hm hw ht => ?_
    obtain ⟨events, eventNo, ht⟩ := ht
    exact .inr (acquire_spins ht ⟨hw.ready, hw.seq⟩ (hfree m hm hw.seq))
  · refine reaches_of_waiting hrun hprog (by simp) ⟨hready, hseq⟩ (fun h => by cases h) fun m t hm hw ht => ?_
    obtain ⟨events, eventNo, ht⟩ := ht
    exact .inr (spin_completes ht ⟨hw.ready, hw.seq⟩ (hlater m hm hw.seq))

end Sys2Proof
end
